-- ==== Sys2Proof/Word.lean ====
section
/-! DEFINITION. The word types of HPA-TCB: host words, bus bytes, 7-bit device addresses, 16-bit coefficients (R8, R10, R22). -/

namespace Sys2Proof

/-- A host register or command word (R22, R80). -/
abbrev Word := BitVec 32

/-- One bus byte, sub-address or RXBUF element (R8, R31). -/
abbrev Byte := BitVec 8

/-- A 7-bit device address (R8). -/
abbrev Addr7 := BitVec 7

/-- The raw 16-bit pattern of a calibration coefficient (R32). -/
abbrev Half := BitVec 16

end Sys2Proof
end

