-- ==== Sys2Proof/Config.lean ====
section
/-! DEFINITION. The build options and parameters of R3 and R7, the constants of R7 and R165, and the free values. -/

namespace Sys2Proof

/-- Which sensor's driver and datapath the block contains (R3). -/
inductive Variant where
  | a
  | b
deriving DecidableEq, Repr

/-- What a signed operation whose exact result is out of range does (R7, R11). -/
inductive OverflowMode where
  | wrap
  | fault
deriving DecidableEq, Repr

/-- Byte order of the variant-B coefficients (R7, R200). -/
inductive CalOrder where
  | big
  | little
deriving DecidableEq, Repr

/-- Order of the two variant-B configuration writes (R7, R210). -/
inductive CfgOrder where
  | f4First
  | f5First
deriving DecidableEq, Repr

/-- The sentinel check of variant B (R7, R202). -/
inductive SentinelB where
  | first
  | none
deriving DecidableEq, Repr

/-- The options fixed when the block is built (R3, R7). The state carries one build and no step writes it
(R20 calls it configuration; assumption log 4). -/
structure Build where
  variant      : Variant
  overflowMode : OverflowMode
  /-- `ID_REG_A` (OPEN). -/
  idRegA       : Byte
  /-- `N_ID_READS` (OPEN, at least 2: `Build.wf`). -/
  nIdReads     : Nat
  /-- `T_PWRON_A` in ms (OPEN). -/
  tPwronA      : Nat
  /-- `T_PWRON_B` in ms (OPEN). -/
  tPwronB      : Nat
  /-- `CFG_F4` (OPEN). -/
  cfgF4        : Byte
  /-- `CFG_F5` (OPEN). -/
  cfgF5        : Byte
  bCfgOrder    : CfgOrder
  bCalOrder    : CalOrder
  sentinelB    : SentinelB
deriving DecidableEq, Repr

/-- R7: `N_ID_READS` is at least 2. -/
abbrev Build.wf (b : Build) : Prop := 2 ≤ b.nIdReads

namespace Config

/-- `NMAX`, the receive buffer size in bytes (R7, R31). -/
abbrev nmax : Nat := 32

/-- `T_CONV_T`, the variant-A temperature settle wait in ms (R7, C8). -/
def tConvT : Nat := 5

/-- `T_CONV_P`, the variant-A pressure settle wait in ms (R7, C8). -/
def tConvP : Nat := 8

/-- The oversampling setting, fixed at 0 (R165). -/
def oss : Nat := 0

/-- `ID_REG_A` of the reset state's build: OPEN in R7, no value (log 5). -/
opaque idRegA : Byte

/-- `N_ID_READS - 2` of the reset state's build: OPEN in R7, no value (log 5). -/
opaque moreIdReads : Nat

/-- `T_PWRON_A` of the reset state's build: OPEN in R7, no value (log 5). -/
opaque tPwronA : Nat

/-- `T_PWRON_B` of the reset state's build: OPEN in R7, no value (log 5). -/
opaque tPwronB : Nat

/-- `CFG_F4` of the reset state's build: OPEN in R7, no value (log 5). -/
opaque cfgF4 : Byte

/-- `CFG_F5` of the reset state's build: OPEN in R7, no value (log 5). -/
opaque cfgF5 : Byte

/-- The value the n-th host read of an "any value" register returns (R31, R39, R71, U18, U19, U26): free (log 8). -/
opaque anyWord : Nat → Word

/-- The build of the reset state: the defaults of R7 where it gives one, `VARIANT = A` (DESIGN CHOICE, log 4),
and the OPEN values left without a value. -/
def build : Build where
  variant      := .a
  overflowMode := .wrap
  idRegA       := idRegA
  nIdReads     := moreIdReads + 2
  tPwronA      := tPwronA
  tPwronB      := tPwronB
  cfgF4        := cfgF4
  cfgF5        := cfgF5
  bCfgOrder    := .f4First
  bCalOrder    := .big
  sentinelB    := .first

end Config

end Sys2Proof
end

