-- ==== Sys2Proof/Syntax.lean ====
section
/-! DEFINITION. The commands of HPA-TCB: one constructor per row of the opcode map (R83), with the fields the row uses. -/

namespace Sys2Proof

/-- A command (R83). `a` is ADDR7, `r` is REG; the last operand is ARG: a byte value `v`, an RXBUF index `i` or offset `o`,
or a count `n` (R81). -/
inductive Instr where
  | start
  | wrb (v : Byte)
  | rda (i : Byte)
  | rdnk (i : Byte)
  | stop
  | rd1 (a : Addr7) (r o : Byte)
  | rd2 (a : Addr7) (r o : Byte)
  | rdburst (a : Addr7) (r n : Byte)
  | wr1 (a : Addr7) (r v : Byte)
  | setptr (a : Addr7) (r : Byte)
  | rdcur (a : Addr7) (n : Byte)
  | ldcalA
  | packAt
  | packAp
  | compAt
  | compAp
  | initA (a : Addr7)
  | sampleA (a : Addr7)
  | ldcalB
  | unpackB
  | compBt
  | compBp
  | initB (a : Addr7)
  | sampleB (a : Addr7)
deriving DecidableEq, Repr

end Sys2Proof
end

