-- ==== Sys2Proof/WellFormed.lean ====
section
/-! DEFINITION. When a command's operands are in range (R84) and which variant must be built for it (R86 item 5). -/

namespace Sys2Proof

/-- The operand range rules of R84. -/
def Instr.wf : Instr → Bool
  | .rda i | .rdnk i => i.toNat < Config.nmax
  | .rd1 _ _ o => o.toNat < Config.nmax
  | .rd2 _ _ o => o.toNat ≤ Config.nmax - 2
  | .rdburst _ _ n | .rdcur _ n => 1 ≤ n.toNat && n.toNat ≤ Config.nmax
  | .start | .wrb _ | .stop | .wr1 _ _ _ | .setptr _ _ => true
  | .ldcalA | .packAt | .packAp | .compAt | .compAp | .initA _ | .sampleA _ => true
  | .ldcalB | .unpackB | .compBt | .compBp | .initB _ | .sampleB _ => true

/-- The variant a command belongs to, if it belongs to one (R83). -/
def Instr.variant? : Instr → Option Variant
  | .start | .wrb _ | .rda _ | .rdnk _ | .stop => none
  | .rd1 _ _ _ | .rd2 _ _ _ | .rdburst _ _ _ | .wr1 _ _ _ | .setptr _ _ | .rdcur _ _ => none
  | .ldcalA | .packAt | .packAp | .compAt | .compAp | .initA _ | .sampleA _ => some .a
  | .ldcalB | .unpackB | .compBt | .compBp | .initB _ | .sampleB _ => some .b

/-- R86 item 5: the command's variant, if any, is the one built. -/
def Instr.builtIn (i : Instr) (v : Variant) : Bool :=
  match i.variant? with
  | none => true
  | some w => w = v

/-- A command that R86 does not call illegal in a build of variant `v` (its word's fields aside, which decoding checks). -/
def Instr.admitted (i : Instr) (v : Variant) : Bool := i.wf && i.builtIn v

end Sys2Proof
end

