-- ==== Sys2Proof/Decode.lean ====
section
/-! DEFINITION. Decoding a 32-bit command word (R80 to R87), total on every word and rejecting by name, and the encoder (R88). -/

namespace Sys2Proof

/-- Why a word is no command (R86 items 1 to 4; item 5 needs the build and is checked when the command is accepted). -/
inductive DecodeError where
  /-- R86 item 1. -/
  | unassignedOp
  /-- R86 item 2. -/
  | rsvSet
  /-- R86 item 3. -/
  | unusedField
  /-- R86 item 4. -/
  | operandRange
deriving DecidableEq, Repr

/-- OP, bits 7:0 (R80). -/
def fieldOp (w : Word) : Byte := w.extractLsb' 0 8

/-- ADDR7, bits 14:8 (R80). -/
def fieldAddr (w : Word) : Addr7 := w.extractLsb' 8 7

/-- RSV, bit 15 (R80). -/
def fieldRsv (w : Word) : BitVec 1 := w.extractLsb' 15 1

/-- REG, bits 23:16 (R80). -/
def fieldReg (w : Word) : Byte := w.extractLsb' 16 8

/-- ARG, bits 31:24 (R80). -/
def fieldArg (w : Word) : Byte := w.extractLsb' 24 8

/-- The command an opcode names, with its operands taken from the fields (R83); none for an unassigned opcode. -/
def assemble (op : Byte) (a : Addr7) (r g : Byte) : Option Instr :=
  match op.toNat with
  | 0x01 => some .start
  | 0x02 => some (.wrb g)
  | 0x03 => some (.rda g)
  | 0x04 => some (.rdnk g)
  | 0x05 => some .stop
  | 0x10 => some (.rd1 a r g)
  | 0x11 => some (.rd2 a r g)
  | 0x12 => some (.rdburst a r g)
  | 0x13 => some (.wr1 a r g)
  | 0x14 => some (.setptr a r)
  | 0x15 => some (.rdcur a g)
  | 0x20 => some .ldcalA
  | 0x21 => some .packAt
  | 0x22 => some .packAp
  | 0x23 => some .compAt
  | 0x24 => some .compAp
  | 0x28 => some (.initA a)
  | 0x29 => some (.sampleA a)
  | 0x30 => some .ldcalB
  | 0x31 => some .unpackB
  | 0x33 => some .compBt
  | 0x34 => some .compBp
  | 0x38 => some (.initB a)
  | 0x39 => some (.sampleB a)
  | _ => none

/-- Which of ADDR7, REG and ARG a command uses (the "fields used" column of R83). -/
def fieldsUsed : Instr → Bool × Bool × Bool
  | .start | .stop => (false, false, false)
  | .wrb _ | .rda _ | .rdnk _ => (false, false, true)
  | .rd1 _ _ _ | .rd2 _ _ _ | .rdburst _ _ _ | .wr1 _ _ _ => (true, true, true)
  | .setptr _ _ => (true, true, false)
  | .rdcur _ _ => (true, false, true)
  | .initA _ | .sampleA _ | .initB _ | .sampleB _ => (true, false, false)
  | .ldcalA | .packAt | .packAp | .compAt | .compAp => (false, false, false)
  | .ldcalB | .unpackB | .compBt | .compBp => (false, false, false)

/-- R86 item 3: every field the command does not use is 0. -/
def unusedZero (i : Instr) (a : Addr7) (r g : Byte) : Bool :=
  let u := fieldsUsed i
  (u.1 || a == 0) && (u.2.1 || r == 0) && (u.2.2 || g == 0)

/-- Decoding a command word, its checks in the order of R86. -/
def decode (w : Word) : Except DecodeError Instr :=
  match assemble (fieldOp w) (fieldAddr w) (fieldReg w) (fieldArg w) with
  | none => .error .unassignedOp
  | some i =>
    if fieldRsv w ≠ 0 then .error .rsvSet
    else if !unusedZero i (fieldAddr w) (fieldReg w) (fieldArg w) then .error .unusedField
    else if !i.wf then .error .operandRange
    else .ok i

/-- The decoder read as the opcode table numbers the bits: one 32-bit word, bits above `nbits` zero. -/
def decodeTableWord (nbits w : Nat) : Option Instr :=
  if 32 < nbits then none
  else (decode (BitVec.ofNat 32 (w % 2 ^ nbits))).toOption

/-- The opcode of a command (R83). -/
def opcode : Instr → Byte
  | .start => 0x01
  | .wrb _ => 0x02
  | .rda _ => 0x03
  | .rdnk _ => 0x04
  | .stop => 0x05
  | .rd1 _ _ _ => 0x10
  | .rd2 _ _ _ => 0x11
  | .rdburst _ _ _ => 0x12
  | .wr1 _ _ _ => 0x13
  | .setptr _ _ => 0x14
  | .rdcur _ _ => 0x15
  | .ldcalA => 0x20
  | .packAt => 0x21
  | .packAp => 0x22
  | .compAt => 0x23
  | .compAp => 0x24
  | .initA _ => 0x28
  | .sampleA _ => 0x29
  | .ldcalB => 0x30
  | .unpackB => 0x31
  | .compBt => 0x33
  | .compBp => 0x34
  | .initB _ => 0x38
  | .sampleB _ => 0x39

/-- `ARG<<24 | REG<<16 | ADDR7<<8 | OP`, RSV 0 (R80, R88). -/
def packWord (op : Byte) (a : Addr7) (r g : Byte) : Word := g ++ r ++ (0 : BitVec 1) ++ a ++ op

/-- The word of a command, unused fields 0 (R88). -/
def encode (i : Instr) : Word :=
  match i with
  | .start | .stop => packWord (opcode i) 0 0 0
  | .wrb g | .rda g | .rdnk g => packWord (opcode i) 0 0 g
  | .rd1 a r g | .rd2 a r g | .rdburst a r g | .wr1 a r g => packWord (opcode i) a r g
  | .setptr a r => packWord (opcode i) a r 0
  | .rdcur a g => packWord (opcode i) a 0 g
  | .initA a | .sampleA a | .initB a | .sampleB a => packWord (opcode i) a 0 0
  | .ldcalA | .packAt | .packAp | .compAt | .compAp => packWord (opcode i) 0 0 0
  | .ldcalB | .unpackB | .compBt | .compBp => packWord (opcode i) 0 0 0

/-- The address byte `(a << 1) | dir`: the address in bits 7:1, the direction in bit 0, 0 for WRITE and 1 for READ (R85). -/
def abyte (a : Addr7) (dir : BitVec 1) : Byte := a ++ dir

/-- The pseudo-instruction `ADDRW a` (R89). -/
def addrW (a : Addr7) : Instr := .wrb (abyte a 0)

/-- The pseudo-instruction `ADDRR a` (R89). -/
def addrR (a : Addr7) : Instr := .wrb (abyte a 1)

/-- The pseudo-instruction `SR`: START, which is a repeated START in TX or RXEND (R89, R101). -/
def repeatedStart : Instr := .start

end Sys2Proof
end

