-- ==== Sys2Proof/Machine/State.lean ====
section
/-! DEFINITION. The state of HPA-TCB as plain data (R20 to R39), its fault codes (R240) and the reset state (R39, R270). -/

namespace Sys2Proof.Machine

/-- Lean-level faults: there are none. Every fault the spec describes is the block's sticky fault state (R244),
a NEXT state of the machine, so no step raises one; the type is empty (log 22; safe). -/
inductive Fault where
deriving DecidableEq, Repr

/-- Reasons a step has no meaning. -/
inductive Refusal where
  /-- An instruction that has no meaning yet, by its mnemonic; raised by exec's arms only, and by none of them here. Safe:
  the machine stops where the block goes on. -/
  | notModelled (mnemonic : String)
deriving DecidableEq, Repr

/-- The fault codes of STATUS.FAULT_CODE (R240). -/
inductive FaultCode where
  | none
  | illegalCommand
  | protocolViolation
  | cmdWhileBusy
  | staleFine
  | divideByZero
  | calReload
  | overflow
  | unwrittenOperand
  | illegalAccess
deriving DecidableEq, Repr

/-- TSTATE, the phase of the transaction on the bus (R25). -/
inductive TState where
  | idle
  | started
  | tx
  | rx
  | rxend
deriving DecidableEq, Repr

/-- DRV_STATE (R33). -/
inductive DrvState where
  | uninit
  | calLoaded
  | ready
deriving DecidableEq, Repr

/-- The direction of an address byte (R30, R85). -/
inductive Dir where
  | write
  | read
deriving DecidableEq, Repr

/-- A request of the engine to the bus environment (R100). -/
inductive Sym where
  /-- `S`. -/
  | start
  /-- `Sr`. -/
  | repStart
  /-- `P`. -/
  | stop
  /-- `W(b)`. -/
  | write (b : Byte)
  /-- `R(m)`; true is ACK. -/
  | read (m : Bool)
  /-- `D(ms)`. -/
  | delay (ms : Nat)
deriving DecidableEq, Repr

/-- A completed bus event (R37). -/
inductive BusEvent where
  /-- `S`. -/
  | start
  /-- `Sr`. -/
  | repStart
  /-- `P`. -/
  | stop
  /-- `W(b, ack)`. -/
  | write (b : Byte) (ack : Bool)
  /-- `R(d, m)`. -/
  | read (d : Byte) (m : Bool)
  /-- `D(ms)`. -/
  | delay (ms : Nat)
deriving DecidableEq, Repr

/-- One step of the command in progress (R36): a bus primitive (R101 to R105), a delay, a datapath step,
or a check or register write the command's pseudocode gives a line of its own. -/
inductive MStep where
  /-- `require TSTATE = IDLE` (R130). -/
  | requireIdle
  /-- `if DRV_STATE != UNINIT: raise Fault(CalReload)` (R170, R210). -/
  | requireUninit
  | start
  | wrb (b : Byte)
  | rda (i : Nat)
  | rdnk (i : Nat)
  | stop
  /-- RD2's `RX16 <- RXBUF[o] << 8 | RXBUF[o+1]` (R132). -/
  | latchRx16 (o : Nat)
  | delay (ms : Nat)
  | ldcalA
  | packAt
  | packAp
  | compAt
  | compAp
  | ldcalB
  | unpackB
  | compBt
  | compBp
  /-- INIT's `DRV_STATE <- READY` (R170, R210). -/
  | setReady
  /-- SAMPLE's `T_OUT <- 0; P_OUT <- 0` (R171, R211). -/
  | zeroOutputs
deriving DecidableEq, Repr

/-- A host access at an offset from TCB_BASE, of a size in bytes (R22, R241). -/
inductive HostAccess where
  | read (offset : Word) (bytes : Nat)
  | write (offset : Word) (bytes : Nat) (data : Word)
deriving DecidableEq, Repr

/-- What comes to the block from outside (R17, R100, R270), and when the engine yields (log 1, log 2). -/
inductive Input where
  /-- The environment completes the outstanding request, with an acknowledge bit and a byte (each used where R100 names it). -/
  | complete (ack : Bool) (d : Byte)
  /-- The host accesses a register. -/
  | access (a : HostAccess)
  /-- Reset (R270). -/
  | reset
  /-- The engine makes at most `n` more moves before the next input is taken. -/
  | hold (n : Nat)
deriving DecidableEq, Repr

/-- The host-visible registers (R22). -/
inductive HostReg where
  | cmd
  | status
  | rxdata
  | rx16
  | rawT
  | rawP
  | fine
  | tOut
  | pOut
  | faultCmd
  | xfer
  | rxbuf (i : Nat)
  | cal (k : Nat)
deriving DecidableEq, Repr

/-- The state of the block (R20), with the model's own fields `build`, `inputs`, `hostData`, `draws` and `cmd`.
`none` in a register field is the spec's ⊥ (R14, R39, log 7). -/
structure State where
  /-- The build options; no step writes them (R20, log 4). -/
  build     : Build
  /-- What the environment and the host do next, in order (log 1). -/
  inputs    : List Input
  /-- STATUS.BUSY (R24). -/
  busy      : Bool
  /-- STATUS.DONE (R24). -/
  done      : Bool
  /-- STATUS.FAULT and FAULTED (R36, log 21). -/
  faulted   : Bool
  /-- STATUS.TSTATE (R25). -/
  tstate    : TState
  /-- STATUS.DRV_STATE (R33). -/
  drvState  : DrvState
  /-- STATUS.CAL_OK (R34). -/
  calOk     : Bool
  /-- STATUS.FINE_VALID (R35). -/
  fineValid : Bool
  /-- STATUS.FAULT_CODE (R240). -/
  faultCode : FaultCode
  /-- RXDATA (R26). -/
  rxdata    : Option Byte
  /-- RX16 (R27). -/
  rx16      : Option Half
  /-- RAW_T (R28). -/
  rawT      : Option Word
  /-- RAW_P (R28). -/
  rawP      : Option Word
  /-- FINE (R29). -/
  fine      : Option Word
  /-- T_OUT (R29). -/
  tOut      : Option Word
  /-- P_OUT (R29). -/
  pOut      : Option Word
  /-- FAULT_CMD (R22, R240). -/
  faultCmd  : Word
  /-- XFER.CUR_ADDR (R30). -/
  curAddr   : Addr7
  /-- XFER.CUR_DIR (R30). -/
  curDir    : Dir
  /-- RXBUF (R31). -/
  rxbuf     : Vector (Option Byte) Config.nmax
  /-- CAL (R32). -/
  cal       : Vector Half 12
  /-- MSEQ (R36). -/
  mseq      : List MStep
  /-- PEND (R36). -/
  pend      : Option Sym
  /-- The word of the command in progress, which a fault inside it records (R240); none when no command is, since a word is
  not kept after its command (R73, log 10). -/
  cmd       : Option Word
  /-- TRACE, oldest event first (R37). -/
  trace     : List BusEvent
  /-- What the last host read returned (log 9). -/
  hostData  : Option Word
  /-- How many free values host reads have drawn (log 8). -/
  draws     : Nat
deriving DecidableEq, Repr

/-- The state right after reset of a given build: the values of R39. -/
def State.resetOf (b : Build) : State where
  build     := b
  inputs    := []
  busy      := false
  done      := false
  faulted   := false
  tstate    := .idle
  drvState  := .uninit
  calOk     := false
  fineValid := false
  faultCode := .none
  rxdata    := none
  rx16      := none
  rawT      := none
  rawP      := none
  fine      := none
  tOut      := none
  pOut      := none
  faultCmd  := 0
  curAddr   := 0
  curDir    := .write
  rxbuf     := Vector.replicate Config.nmax none
  cal       := Vector.replicate 12 0
  mseq      := []
  pend      := none
  cmd       := none
  trace     := []
  hostData  := none
  draws     := 0

/-- The machine right after reset (R39, R270), with the build of `Config.build` (log 4, log 5). -/
def State.reset : State := State.resetOf Config.build

/-- The outcome of a step of this machine. -/
abbrev Result := Host.Outcome State Fault Refusal

/-- What a step of MSEQ does when the engine reaches it: it is done at once, or raises a fault, or issues a request. -/
inductive Action where
  | done (s : State)
  | fail (c : FaultCode)
  | request (sym : Sym)
deriving DecidableEq, Repr

end Sys2Proof.Machine
end

