-- ==== Sys2Proof/Machine/Ops.lean ====
section
/-! DEFINITION. The named operations on the state: fault entry (R244), the command handshake (R24, R90), requests and
events (R100), the receive buffer (R31), XFER (R30) and reset (R270). -/

namespace Sys2Proof.Machine

/-- Fault entry with code `c`, recording word `w` (R244): one step, nothing else changes. The command in progress is
abandoned and its word not kept (R73). There is no return from a fault but reset (R247). -/
def State.raise (c : FaultCode) (w : Word) (s : State) : State :=
  { s with
    faulted   := true
    faultCode := c
    faultCmd  := w
    busy      := false
    done      := true
    mseq      := []
    pend      := none
    cmd       := none }

/-- Accepting a command: BUSY, DONE and MSEQ (R24, R90 step 4); the word is held for FAULT_CMD while the command lasts
(log 10). -/
def State.accept (w : Word) (seq : List MStep) (s : State) : State :=
  { s with busy := true, done := false, cmd := some w, mseq := seq }

/-- The step at the head of MSEQ is over and `rest` remains; with the last step BUSY falls, DONE rises and the
command word is given up (R24, R73, R90, log 19). -/
def State.retire (rest : List MStep) (s : State) : State :=
  match rest with
  | [] => { s with mseq := [], busy := false, done := true, cmd := none }
  | m :: more => { s with mseq := m :: more }

/-- The word a fault of the step in hand records: that of the command in progress (R240). A step without a command, which no
run reaches, records 0 (log 10). -/
def State.commandWord (s : State) : Word := s.cmd.getD 0

/-- Issuing a request: `PEND <- sym` (R100). -/
def State.issue (sym : Sym) (s : State) : State := { s with pend := some sym }

/-- The state with other inputs still to come (log 1). -/
def State.withInputs (l : List Input) (s : State) : State := { s with inputs := l }

/-- The trace event of a completed request (R100): the slave's `ack` for a written byte, the byte `d` for a read. -/
def Sym.event (sym : Sym) (ack : Bool) (d : Byte) : BusEvent :=
  match sym with
  | .start => .start
  | .repStart => .repStart
  | .stop => .stop
  | .write b => .write b ack
  | .read m => .read d m
  | .delay ms => .delay ms

/-- Completing a request: the event joins TRACE and `PEND <- none` (R100). -/
def State.record (e : BusEvent) (s : State) : State := { s with trace := s.trace ++ [e], pend := none }

/-- Receiving a byte: `RXBUF[i] <- d; RXDATA <- d` (R103, R104). An index past the buffer, which R84 keeps out of every
MSEQ, writes no element (log 29). -/
def State.receive (i : Nat) (d : Byte) (s : State) : State :=
  { s with rxbuf := s.rxbuf.setIfInBounds i (some d), rxdata := some d }

/-- The direction an address byte's bit 0 names (R85). -/
def dirOf (b : Byte) : Dir := if b.getLsbD 0 then .read else .write

/-- The effect of an address byte: XFER and TSTATE (R102). -/
def State.address (b : Byte) (s : State) : State :=
  { s with
    curAddr := b.extractLsb' 1 7
    curDir  := dirOf b
    tstate  := match dirOf b with
      | .write => .tx
      | .read => .rx }

/-- RXBUF[i]; `none` is ⊥ (R31). -/
def State.rx (s : State) (i : Nat) : Option Byte := s.rxbuf[i]?.join

/-- The reset event (R270): every piece of state at its value of R39. The build stays, and with it the inputs still to come,
what the host last read and the count of free values, which are outside the block (log 23). -/
def State.hardReset (s : State) : State :=
  { State.resetOf s.build with inputs := s.inputs, hostData := s.hostData, draws := s.draws }

end Sys2Proof.Machine
end

