-- ==== Sys2Proof/Machine/Operands.lean ====
section
/-! DEFINITION. Operand forms: bytes of RXBUF (R31), big-endian pairs (R63), calibration coefficients (R160, R165, R200, R204),
raw samples and the fine temperature as integers. -/

namespace Sys2Proof.Machine

/-- RXBUF[0..n-1] are all written (the ⊥ checks of R161, R163, R164, R201, R203). -/
def State.rxWritten (s : State) (n : Nat) : Bool := (List.range n).all fun j => (s.rx j).isSome

/-- The byte of RXBUF[i], read only where it is known to be written. -/
def State.rxByte (s : State) (i : Nat) : Byte := (s.rx i).getD 0

/-- Two bytes big-endian: the first is the high byte (R63). -/
def bePair (h l : Byte) : Half := h ++ l

/-- Coefficient k of the bytes in RXBUF, assembled in an order of bytes (R160, R200). -/
def State.coefficient (s : State) (order : CalOrder) (k : Nat) : Half :=
  match order with
  | .big => bePair (s.rxByte (2 * k)) (s.rxByte (2 * k + 1))
  | .little => bePair (s.rxByte (2 * k + 1)) (s.rxByte (2 * k))

/-- `sext_16` of CAL[k] (R165, R204). -/
def State.calS (s : State) (k : Fin 12) : Int := s.cal[k].toInt

/-- `zext_16` of CAL[k] (R165, R204). -/
def State.calU (s : State) (k : Fin 12) : Int := s.cal[k].toNat

/-- A raw sample as an s32 operand: it always fits (R165, R204), and a conversion of a larger register content is a wrap
(R11, log 13). -/
def rawS32 (v : Word) : Int := v.toInt

/-- A raw sample as an s64 operand (R204). -/
def rawS64 (v : Word) : Int := v.toNat

/-- FINE as a signed operand (R29, R204). -/
def fineInt (v : Word) : Int := v.toInt

/-- An integer result stored in a 32-bit register, signed or unsigned alike: `wrapU_32` of it as a pattern (R10, R29). -/
def toReg (v : Int) : Word := BitVec.ofInt 32 v

/-- The end of a temperature compensation: FINE, T_OUT and FINE_VALID from the formula's results, or the formula's fault and
no write (R166, R206). -/
def storeTemperature (r : Except FaultCode (Int × Int)) (s : State) : Except FaultCode State :=
  match r with
  | .error c => .error c
  | .ok (f, t) => .ok { s with fine := some (toReg f), tOut := some (toReg t), fineValid := true }

/-- The end of a pressure compensation: P_OUT and FINE_VALID, or the formula's fault and no write (R167, R207). -/
def storePressure (r : Except FaultCode Int) (s : State) : Except FaultCode State :=
  match r with
  | .error c => .error c
  | .ok p => .ok { s with pOut := some (toReg p), fineValid := false }

end Sys2Proof.Machine
end

