-- ==== Sys2Proof/Machine/Flags.lean ====
section
/-! DEFINITION. Every flag computation: the STATUS and XFER words (R23, R30), the field codes, and the two sentinel checks
(R162, R202). -/

namespace Sys2Proof.Machine

/-- The code of TSTATE (R23). -/
def TState.code : TState → BitVec 3
  | .idle => 0
  | .started => 1
  | .tx => 2
  | .rx => 3
  | .rxend => 4

/-- The code of DRV_STATE (R23). -/
def DrvState.code : DrvState → BitVec 2
  | .uninit => 0
  | .calLoaded => 1
  | .ready => 2

/-- The code of FAULT_CODE (R240). -/
def FaultCode.code : FaultCode → BitVec 4
  | .none => 0
  | .illegalCommand => 1
  | .protocolViolation => 2
  | .cmdWhileBusy => 3
  | .staleFine => 4
  | .divideByZero => 5
  | .calReload => 6
  | .overflow => 7
  | .unwrittenOperand => 8
  | .illegalAccess => 9

/-- The VARIANT bit (R23). -/
def variantBit : Variant → BitVec 1
  | .a => 0
  | .b => 1

/-- CUR_DIR (R30). -/
def Dir.bit : Dir → BitVec 1
  | .write => 0
  | .read => 1

/-- STATUS as the host reads it (R23), bit 31 first. -/
def State.statusWord (s : State) : Word :=
  (0 : BitVec 11) ++ variantBit s.build.variant ++ s.faultCode.code ++ (0 : BitVec 4)
    ++ BitVec.ofBool s.fineValid ++ BitVec.ofBool s.calOk ++ s.drvState.code
    ++ (0 : BitVec 1) ++ s.tstate.code ++ (0 : BitVec 1)
    ++ BitVec.ofBool s.faulted ++ BitVec.ofBool s.done ++ BitVec.ofBool s.busy

/-- XFER as the host reads it (R30). -/
def State.xferWord (s : State) : Word := (0 : BitVec 23) ++ s.curDir.bit ++ (0 : BitVec 1) ++ s.curAddr

/-- The sentinel test on a first coefficient's raw pattern (R162): all zeros and all ones are invalid. -/
def sentinelOk (first : Half) : Bool := first != 0x0000 && first != 0xFFFF

/-- The variant-B sentinel (R202). -/
def sentinelOkB (mode : SentinelB) (first : Half) : Bool :=
  match mode with
  | .first => sentinelOk first
  | .none => true

end Sys2Proof.Machine
end

