-- ==== Sys2Proof/Machine/Arith.lean ====
section
/-! DEFINITION. The arithmetic of the formula rules (R10 to R13): exact integers, reduced after each operation. -/

namespace Sys2Proof.Machine

/-- `wrapS_W` (R10). -/
def wrapS (width : Nat) (v : Int) : Int := v.bmod (2 ^ width)

/-- `wrapU_W` (R10). -/
def wrapU (width : Nat) (v : Int) : Int := v % 2 ^ width

/-- v lies in the signed range of a width. -/
def inRangeS (width : Nat) (v : Int) : Bool := decide (-(2 ^ (width - 1)) ≤ v) && decide (v < 2 ^ (width - 1))

/-- The reduction of a signed operation's exact result (R11). -/
def reduceS (mode : OverflowMode) (width : Nat) (v : Int) : Except FaultCode Int :=
  if inRangeS width v then .ok v
  else match mode with
    | .wrap => .ok (wrapS width v)
    | .fault => .error .overflow

/-- Signed `+` (R11). -/
def addS (mode : OverflowMode) (width : Nat) (a b : Int) : Except FaultCode Int := reduceS mode width (a + b)

/-- Signed `-` (R11). -/
def subS (mode : OverflowMode) (width : Nat) (a b : Int) : Except FaultCode Int := reduceS mode width (a - b)

/-- Signed `×` (R11). -/
def mulS (mode : OverflowMode) (width : Nat) (a b : Int) : Except FaultCode Int := reduceS mode width (a * b)

/-- Signed `<<`: `v × 2^k`, reduced as `×` (R12). -/
def shlS (mode : OverflowMode) (width : Nat) (v : Int) (k : Nat) : Except FaultCode Int := mulS mode width v (2 ^ k)

/-- Arithmetic right shift, floor of `v / 2^k` (R12). -/
def asr (v : Int) (k : Nat) : Int := v >>> k

/-- Truncating division (R13) for a divisor known to be nonzero, at the rule's width and signedness (log 12). -/
def tdivS (mode : OverflowMode) (width : Nat) (a b : Int) : Except FaultCode Int := reduceS mode width (a.tdiv b)

end Sys2Proof.Machine
end

