-- ==== Sys2Proof/Machine/DatapathA.lean ====
section
/-! DEFINITION. The variant-A datapath steps: LDCAL_A (R161, R162), PACK_AT and PACK_AP (R163, R164),
COMP_AT and COMP_AP (R166, R167). Each answers the fault it raises, or the state after it. -/

namespace Sys2Proof.Machine

/-- CAL with the 11 coefficients of the burst in RXBUF[0..21]; CAL[11] is not written (R160, R161). -/
def State.calFromBurstA (s : State) : Vector Half 12 :=
  Vector.ofFn fun k => if k.val < 11 then s.coefficient .big k.val else s.cal[k]

/-- LDCAL_A (R161). -/
def stepLdcalA (s : State) : Except FaultCode State :=
  if s.drvState ≠ .uninit then .error .calReload
  else if !s.rxWritten 22 then .error .unwrittenOperand
  else .ok { s with
    cal       := s.calFromBurstA
    calOk     := sentinelOk (s.coefficient .big 0)
    drvState  := .calLoaded
    fineValid := false }

/-- PACK_AT (R163): UT, the two bytes big-endian, zero-extended. -/
def stepPackAt (s : State) : Except FaultCode State :=
  if !s.rxWritten 2 then .error .unwrittenOperand
  else .ok { s with rawT := some ((bePair (s.rxByte 0) (s.rxByte 1)).setWidth 32) }

/-- MSB, LSB and XLSB packed and shifted right by 8 - oss (R164). -/
def packAp (b0 b1 b2 : Byte) : Word :=
  ((b0.setWidth 32 <<< 16) ||| (b1.setWidth 32 <<< 8) ||| b2.setWidth 32) >>> (8 - Config.oss)

/-- PACK_AP (R164). -/
def stepPackAp (s : State) : Except FaultCode State :=
  if !s.rxWritten 3 then .error .unwrittenOperand
  else .ok { s with rawP := some (packAp (s.rxByte 0) (s.rxByte 1) (s.rxByte 2)) }

/-- The formula of R166: the fine temperature B5 and the temperature T, or the fault that stops it. -/
def calcAT (m : OverflowMode) (ut ac5 ac6 mc md : Int) : Except FaultCode (Int × Int) := do
  let d ← subS m 32 ut ac6
  let x1 := asr (← mulS m 32 d ac5) 15
  let den ← addS m 32 x1 md
  if den = 0 then .error .divideByZero
  else do
    let x2 ← tdivS m 32 (← shlS m 32 mc 11) den
    let b5 ← addS m 32 x1 x2
    let t := asr (← addS m 32 b5 8) 4
    .ok (b5, t)

/-- COMP_AT (R166): the CAL_OK = 0 path, then the ⊥ check, then the formula (R246). -/
def stepCompAt (s : State) : Except FaultCode State :=
  if !s.calOk then .ok { s with tOut := some 0 }
  else match s.rawT with
    | none => .error .unwrittenOperand
    | some ut =>
      storeTemperature (calcAT s.build.overflowMode (rawS32 ut) (s.calU 4) (s.calU 5) (s.calS 9) (s.calS 10)) s

/-- R167, the lines from X1 to B3. -/
def calcAPb3 (m : OverflowMode) (b6 ac1 ac2 b2 : Int) : Except FaultCode Int := do
  let x1 := asr (← mulS m 32 b2 (asr (← mulS m 32 b6 b6) 12)) 11
  let x2 := asr (← mulS m 32 ac2 b6) 11
  let x3 ← addS m 32 x1 x2
  let sum ← addS m 32 (← mulS m 32 ac1 4) x3
  let b3 := asr (← addS m 32 (← shlS m 32 sum Config.oss) 2) 2
  .ok b3

/-- R167, the lines from the second X1 to B4, a u32. -/
def calcAPb4 (m : OverflowMode) (b6 ac3 ac4 b1 : Int) : Except FaultCode Int := do
  let x1 := asr (← mulS m 32 ac3 b6) 13
  let x2 := asr (← mulS m 32 b1 (asr (← mulS m 32 b6 b6) 12)) 16
  let x3 := asr (← addS m 32 (← addS m 32 x1 x2) 2) 2
  let biased ← addS m 32 x3 32768
  .ok (wrapU 32 (ac4 * wrapU 32 biased) >>> 15)

/-- R167, B7, a u32. -/
def calcAPb7 (up b3 : Int) : Int :=
  wrapU 32 (wrapU 32 (wrapU 32 up - wrapU 32 b3) * (50000 >>> Config.oss))

/-- R167, the two branches on B7 for a nonzero B4. -/
def calcAPquotient (b7 b4 : Int) : Int :=
  if b7 < 0x80000000 then wrapS 32 (wrapU 32 (b7 * 2) / b4)
  else wrapS 32 (wrapU 32 (b7 / b4 * 2))

/-- R167, the final correction. -/
def calcAPfinal (m : OverflowMode) (p : Int) : Except FaultCode Int := do
  let sq ← mulS m 32 (asr p 8) (asr p 8)
  let x1 := asr (← mulS m 32 sq 3038) 16
  let x2 := asr (← mulS m 32 (-7357) p) 16
  let sum ← addS m 32 (← addS m 32 x1 x2) 3791
  addS m 32 p (asr sum 4)

/-- The formula of R167: the pressure p, or the fault that stops it. -/
def calcAP (m : OverflowMode) (up b5 ac1 ac2 ac3 ac4 b1 b2 : Int) : Except FaultCode Int := do
  let b6 ← subS m 32 b5 4000
  let b3 ← calcAPb3 m b6 ac1 ac2 b2
  let b4 ← calcAPb4 m b6 ac3 ac4 b1
  let b7 := calcAPb7 up b3
  if b4 = 0 then .error .divideByZero
  else calcAPfinal m (calcAPquotient b7 b4)

/-- COMP_AP (R167, R280): the CAL_OK = 0 path, StaleFine, the ⊥ check, the formula (R246). FINE is written whenever
FINE_VALID = 1 (C15); in a state no run reaches where it is not, the read of ⊥ faults (log 11). -/
def stepCompAp (s : State) : Except FaultCode State :=
  if !s.calOk then .ok { s with pOut := some 0, fineValid := false }
  else if !s.fineValid then .error .staleFine
  else match s.rawP, s.fine with
    | some up, some b5 =>
      storePressure (calcAP s.build.overflowMode (rawS32 up) (fineInt b5) (s.calS 0) (s.calS 1) (s.calS 2) (s.calU 3)
        (s.calS 6) (s.calS 7)) s
    | _, _ => .error .unwrittenOperand

end Sys2Proof.Machine
end

