-- ==== Sys2Proof/Machine/DatapathB.lean ====
section
/-! DEFINITION. The variant-B datapath steps: LDCAL_B (R200 to R202), UNPACK_B (R203), COMP_BT and COMP_BP (R206, R207).
Each answers the fault it raises, or the state after it. -/

namespace Sys2Proof.Machine

/-- CAL with the 12 coefficients of RXBUF[0..23], in the build's order of bytes (R200). -/
def State.calFromBytesB (s : State) : Vector Half 12 :=
  Vector.ofFn fun k => s.coefficient s.build.bCalOrder k.val

/-- LDCAL_B (R201). -/
def stepLdcalB (s : State) : Except FaultCode State :=
  if s.drvState ≠ .uninit then .error .calReload
  else if !s.rxWritten 24 then .error .unwrittenOperand
  else .ok { s with
    cal       := s.calFromBytesB
    calOk     := sentinelOkB s.build.sentinelB (s.coefficient s.build.bCalOrder 0)
    drvState  := .calLoaded
    fineValid := false }

/-- `byte0<<12 | byte1<<4 | byte2>>4` (R203). -/
def pack20 (b0 b1 b2 : Byte) : Word :=
  (b0.setWidth 32 <<< 12) ||| (b1.setWidth 32 <<< 4) ||| (b2.setWidth 32 >>> 4)

/-- UNPACK_B (R203). -/
def stepUnpackB (s : State) : Except FaultCode State :=
  if !s.rxWritten 6 then .error .unwrittenOperand
  else .ok { s with
    rawP := some (pack20 (s.rxByte 0) (s.rxByte 1) (s.rxByte 2))
    rawT := some (pack20 (s.rxByte 3) (s.rxByte 4) (s.rxByte 5)) }

/-- The formula of R206: t_fine and T, or the fault that stops it. -/
def calcBT (m : OverflowMode) (adcT t1 t2 t3 : Int) : Except FaultCode (Int × Int) := do
  let d ← subS m 32 (asr adcT 3) (← shlS m 32 t1 1)
  let var1 := asr (← mulS m 32 d t2) 11
  let t ← subS m 32 (asr adcT 4) t1
  let var2 := asr (← mulS m 32 (asr (← mulS m 32 t t) 12) t3) 14
  let tFine ← addS m 32 var1 var2
  let tOut := asr (← addS m 32 (← mulS m 32 tFine 5) 128) 8
  .ok (tFine, tOut)

/-- COMP_BT (R206): the CAL_OK = 0 path, then the ⊥ check, then the formula (R246). -/
def stepCompBt (s : State) : Except FaultCode State :=
  if !s.calOk then .ok { s with tOut := some 0 }
  else match s.rawT with
    | none => .error .unwrittenOperand
    | some adcT =>
      storeTemperature (calcBT s.build.overflowMode (rawS32 adcT) (s.calU 0) (s.calS 1) (s.calS 2)) s

/-- R207, the three lines of var2, from the first var1. -/
def calcBPvar2 (m : OverflowMode) (var1 p4 p5 p6 : Int) : Except FaultCode Int := do
  let v ← mulS m 64 (← mulS m 64 var1 var1) p6
  let v ← addS m 64 v (← shlS m 64 (← mulS m 64 var1 p5) 17)
  addS m 64 v (← shlS m 64 p4 35)

/-- R207, the denominator, from the first var1. -/
def calcBPden (m : OverflowMode) (var1 p1 p2 p3 : Int) : Except FaultCode Int := do
  let hi := asr (← mulS m 64 (← mulS m 64 var1 var1) p3) 8
  let v ← addS m 64 hi (← shlS m 64 (← mulS m 64 var1 p2) 12)
  let one ← shlS m 64 1 47
  let d := asr (← mulS m 64 (← addS m 64 one v) p1) 33
  .ok d

/-- R207, the lines after the zero test, for a nonzero denominator. -/
def calcBPfinal (m : OverflowMode) (adcP var2 den p7 p8 p9 : Int) : Except FaultCode Int := do
  let p ← subS m 64 1048576 adcP
  let num ← mulS m 64 (← subS m 64 (← shlS m 64 p 31) var2) 3125
  let p ← tdivS m 64 num den
  let v1 := asr (← mulS m 64 (← mulS m 64 p9 (asr p 13)) (asr p 13)) 25
  let v2 := asr (← mulS m 64 p8 p) 19
  let sum ← addS m 64 (← addS m 64 p v1) v2
  addS m 64 (asr sum 8) (← shlS m 64 p7 4)

/-- The formula of R207: the pressure before the store, 0 for a zero denominator (R209), or the fault that stops it. -/
def calcBP (m : OverflowMode) (adcP tFine p1 p2 p3 p4 p5 p6 p7 p8 p9 : Int) : Except FaultCode Int := do
  let var1 ← subS m 64 tFine 128000
  let var2 ← calcBPvar2 m var1 p4 p5 p6
  let den ← calcBPden m var1 p1 p2 p3
  if den = 0 then .ok 0 else calcBPfinal m adcP var2 den p7 p8 p9

/-- COMP_BP (R207, R280): the CAL_OK = 0 path, StaleFine, the ⊥ check, the formula (R246); FINE as in `stepCompAp` (log 11). -/
def stepCompBp (s : State) : Except FaultCode State :=
  if !s.calOk then .ok { s with pOut := some 0, fineValid := false }
  else if !s.fineValid then .error .staleFine
  else match s.rawP, s.fine with
    | some adcP, some tFine =>
      storePressure (calcBP s.build.overflowMode (rawS64 adcP) (fineInt tFine) (s.calU 3) (s.calS 4) (s.calS 5) (s.calS 6)
        (s.calS 7) (s.calS 8) (s.calS 9) (s.calS 10) (s.calS 11)) s
    | _, _ => .error .unwrittenOperand

end Sys2Proof.Machine
end

