-- ==== Sys2Proof/Machine/Engine.lean ====
section
/-! DEFINITION. The engine: what each step of MSEQ does (R100 to R105, R130), running MSEQ until the command ends, the
environment keeps the engine waiting or the host has the floor (R69, R106, log 2), and accepting a command (R90). -/

namespace Sys2Proof.Machine

/-- START's request: `S` from IDLE, `Sr` from TX or RXEND, else a violation (R101). -/
def requestStart (s : State) : Action :=
  match s.tstate with
  | .idle => .request .start
  | .tx | .rxend => .request .repStart
  | .started | .rx => .fail .protocolViolation

/-- WRB's request (R102). -/
def requestWrb (b : Byte) (s : State) : Action :=
  match s.tstate with
  | .started | .tx => .request (.write b)
  | .idle | .rx | .rxend => .fail .protocolViolation

/-- The request of RDA (m true) and RDNK (m false) (R103, R104). -/
def requestRead (m : Bool) (s : State) : Action :=
  match s.tstate with
  | .rx => .request (.read m)
  | .idle | .started | .tx | .rxend => .fail .protocolViolation

/-- STOP's request (R105). -/
def requestStop (s : State) : Action :=
  match s.tstate with
  | .tx | .rxend => .request .stop
  | .idle | .started | .rx => .fail .protocolViolation

/-- A datapath step as an action. -/
def internal (r : Except FaultCode State) : Action :=
  match r with
  | .ok s => .done s
  | .error c => .fail c

/-- RD2's last step: RX16 from the two bytes just received (R132, R64). Both are written by then; were one ⊥, the read would
fault as R31 says (log 28). -/
def stepLatchRx16 (o : Nat) (s : State) : Except FaultCode State :=
  match s.rx o, s.rx (o + 1) with
  | some h, some l => .ok { s with rx16 := some (bePair h l) }
  | _, _ => .error .unwrittenOperand

/-- What the step at the head of MSEQ does: preconditions are checked before any bus symbol (R90). -/
def action (m : MStep) (s : State) : Action :=
  match m with
  | .requireIdle => if s.tstate = .idle then .done s else .fail .protocolViolation
  | .requireUninit => if s.drvState = .uninit then .done s else .fail .calReload
  | .start => requestStart s
  | .wrb b => requestWrb b s
  | .rda _ => requestRead true s
  | .rdnk _ => requestRead false s
  | .stop => requestStop s
  | .latchRx16 o => internal (stepLatchRx16 o s)
  | .delay ms => .request (.delay ms)
  | .ldcalA => internal (stepLdcalA s)
  | .packAt => internal (stepPackAt s)
  | .packAp => internal (stepPackAp s)
  | .compAt => internal (stepCompAt s)
  | .compAp => internal (stepCompAp s)
  | .ldcalB => internal (stepLdcalB s)
  | .unpackB => internal (stepUnpackB s)
  | .compBt => internal (stepCompBt s)
  | .compBp => internal (stepCompBp s)
  | .setReady => .done { s with drvState := .ready }
  | .zeroOutputs => .done { s with tOut := some 0, pOut := some 0 }

/-- What a bus primitive does once its request is completed with byte `d` (R101 to R105). The acknowledge bit is read by
no rule (R108). A delay and the steps that issue no request change nothing here. -/
def effect (m : MStep) (d : Byte) (s : State) : State :=
  match m with
  | .start => { s with tstate := .started }
  | .wrb b =>
    match s.tstate with
    | .started => s.address b
    | .idle | .tx | .rx | .rxend => s
  | .rda i => s.receive i d
  | .rdnk i => { s.receive i d with tstate := .rxend }
  | .stop => { s with tstate := .idle }
  | .delay _ | .requireIdle | .requireUninit | .latchRx16 _ | .setReady | .zeroOutputs => s
  | .ldcalA | .packAt | .packAp | .compAt | .compAp | .ldcalB | .unpackB | .compBt | .compBp => s

/-- The environment completes request `sym` of step `m` (R100): the event joins TRACE, the step takes its effect and `rest`
remains. -/
def completed (m : MStep) (sym : Sym) (ack : Bool) (d : Byte) (rest : List MStep) (s : State) : State :=
  (effect m d (s.record (sym.event ack d))).retire rest

/-- Whose turn it is before a move of the engine: none when a `hold` has run out, else the inputs with that move counted
(log 2). -/
def engineTurn : List Input → Option (List Input)
  | .hold 0 :: _ => none
  | .hold (n + 1) :: more => some (.hold n :: more)
  | inputs => some inputs

/-- Running the steps of MSEQ in order (R69, R90). A request that the next input completes is completed at once; otherwise the
engine waits with PEND set (R100, R106). A fault abandons the rest (R244). -/
def run : List MStep → State → State
  | [], s => s
  | m :: rest, s =>
    match engineTurn s.inputs with
    | none => s
    | some inputs =>
      let s := s.withInputs inputs
      match action m s with
      | .fail c => s.raise c s.commandWord
      | .done s' => run rest (s'.retire rest)
      | .request sym =>
        let s := s.issue sym
        match s.inputs with
        | .complete ack d :: more => run rest (completed m sym ack d rest (s.withInputs more))
        | _ => s

/-- The engine goes on by itself if it is not waiting for the environment. -/
def resume (s : State) : State :=
  match s.pend with
  | some _ => s
  | none => run s.mseq s

/-- A completion arrives from the environment. With no request outstanding it is discarded (R244, log 17). -/
def takeCompletion (ack : Bool) (d : Byte) (s : State) : State :=
  match s.pend, s.mseq with
  | some sym, m :: rest => run rest (completed m sym ack d rest s)
  | some _, [] => s
  | none, _ => s

/-- The host writes the word of command `i`, whose MSEQ is `seq`, to CMD (R90): ignored in the fault state (R247),
CmdWhileBusy (R242), IllegalCommand for a range or variant R86 excludes, else accepted and run. -/
def command (i : Instr) (seq : List MStep) (s : State) : State :=
  if s.faulted then s
  else if s.busy then s.raise .cmdWhileBusy (encode i)
  else if !i.admitted s.build.variant then s.raise .illegalCommand (encode i)
  else run seq (s.accept (encode i) seq)

/-- The host writes a word that is no command to CMD (R90, R86 items 1 to 4). -/
def illegalWord (w : Word) (s : State) : State :=
  if s.faulted then s
  else if s.busy then s.raise .cmdWhileBusy w
  else s.raise .illegalCommand w

end Sys2Proof.Machine
end

