-- ==== Sys2Proof/Machine/Sequences.lean ====
section
/-! DEFINITION. The steps each command expands to (R90): the composites (R131 to R142), the initialisations (R170, R210) and
the samples (R171, R211), with the device registers of R61. -/

namespace Sys2Proof.Machine

/-- A WRITE transaction's opening: START, the address byte, the sub-address. -/
def seqPointer (a : Addr7) (r : Byte) : List MStep := [.start, .wrb (abyte a 0), .wrb r]

/-- The opening of a read from register r: the pointer, then a repeated START and the READ address byte (R131 to R133). -/
def seqReadFrom (a : Addr7) (r : Byte) : List MStep := seqPointer a r ++ [.start, .wrb (abyte a 1)]

/-- `RDA o; …; RDNK o+n; STOP`: n + 1 bytes, all but the last answered ACK. -/
def seqBytes (o : Nat) : Nat → List MStep
  | 0 => [.rdnk o, .stop]
  | n + 1 => .rda o :: seqBytes (o + 1) n

/-- RD1 (R131). -/
def seqRd1 (a : Addr7) (r : Byte) (o : Nat) : List MStep := seqReadFrom a r ++ seqBytes o 0

/-- RD2 (R132). -/
def seqRd2 (a : Addr7) (r : Byte) (o : Nat) : List MStep := seqReadFrom a r ++ seqBytes o 1 ++ [.latchRx16 o]

/-- RDBURST of n bytes, n at least 1 (R133). -/
def seqBurst (a : Addr7) (r : Byte) (n : Nat) : List MStep := seqReadFrom a r ++ seqBytes 0 (n - 1)

/-- WR1 (R134). -/
def seqWr1 (a : Addr7) (r v : Byte) : List MStep := seqPointer a r ++ [.wrb v, .stop]

/-- SETPTR (R140). -/
def seqSetptr (a : Addr7) (r : Byte) : List MStep := seqPointer a r ++ [.stop]

/-- RDCUR of n bytes, n at least 1 (R142). -/
def seqRdcur (a : Addr7) (n : Nat) : List MStep := [.start, .wrb (abyte a 1)] ++ seqBytes 0 (n - 1)

/-- The control register of both sensors (R61). -/
def regCtrl : Byte := 0xF4

/-- The variant-B filter and standby register (R61). -/
def regConfigB : Byte := 0xF5

/-- The variant-A result register (R61). -/
def regResultA : Byte := 0xF6

/-- The variant-A XLSB result register (R61). -/
def regXlsbA : Byte := 0xF8

/-- The variant-A calibration block (R61). -/
def regCalA : Byte := 0xAA

/-- The variant-B calibration block (R61). -/
def regCalB : Byte := 0x88

/-- The variant-B data block (R61). -/
def regDataB : Byte := 0xF7

/-- The variant-A temperature trigger (R61). -/
def trigTempA : Byte := 0x2E

/-- The variant-A pressure trigger (R61). -/
def trigPressA : Byte := 0x34

/-- n throwaway identity reads (R170). -/
def seqIdReads (a : Addr7) (idReg : Byte) : Nat → List MStep
  | 0 => []
  | n + 1 => seqRd1 a idReg 0 ++ seqIdReads a idReg n

/-- INIT_A (R170). -/
def seqInitA (b : Build) (a : Addr7) : List MStep :=
  [.requireIdle, .requireUninit, .delay b.tPwronA] ++ seqIdReads a b.idRegA b.nIdReads
    ++ seqBurst a regCalA 22 ++ [.ldcalA, .setReady]

/-- SAMPLE_A (R171). -/
def seqSampleA (calOk : Bool) (a : Addr7) : List MStep :=
  if calOk then
    [.requireIdle] ++ seqWr1 a regCtrl trigTempA ++ [.delay Config.tConvT] ++ seqRd2 a regResultA 0 ++ [.packAt, .compAt]
      ++ seqWr1 a regCtrl trigPressA ++ [.delay Config.tConvP] ++ seqRd2 a regResultA 0 ++ seqRd1 a regXlsbA 2
      ++ [.packAp, .compAp]
  else [.requireIdle, .zeroOutputs]

/-- The two configuration writes of INIT_B in the build's order (R210). -/
def seqConfigB (b : Build) (a : Addr7) : List MStep :=
  match b.bCfgOrder with
  | .f4First => seqWr1 a regCtrl b.cfgF4 ++ seqWr1 a regConfigB b.cfgF5
  | .f5First => seqWr1 a regConfigB b.cfgF5 ++ seqWr1 a regCtrl b.cfgF4

/-- `RD2 a, 0x88 + 2k, 2k` for n values of k from k on (R210). -/
def seqCalReadsB (a : Addr7) (k : Nat) : Nat → List MStep
  | 0 => []
  | n + 1 => seqRd2 a (regCalB + BitVec.ofNat 8 (2 * k)) (2 * k) ++ seqCalReadsB a (k + 1) n

/-- INIT_B (R210). -/
def seqInitB (b : Build) (a : Addr7) : List MStep :=
  [.requireIdle, .requireUninit, .delay b.tPwronB] ++ seqConfigB b a ++ seqCalReadsB a 0 12 ++ [.ldcalB, .setReady]

/-- SAMPLE_B (R211). -/
def seqSampleB (calOk : Bool) (a : Addr7) : List MStep :=
  if calOk then [.requireIdle] ++ seqBurst a regDataB 6 ++ [.unpackB, .compBt, .compBp]
  else [.requireIdle, .zeroOutputs]

end Sys2Proof.Machine
end

