-- ==== Sys2Proof/Machine/RegisterAccess.lean ====
section
/-! DEFINITION. The meanings of the register-access composites (R130 to R142): TSTATE must be IDLE, then the list of
primitives. -/

namespace Sys2Proof.Machine

/-- RD1 (R131). -/
def execRd1 (a : Addr7) (r o : Byte) (s : State) : Result :=
  .next (command (.rd1 a r o) (.requireIdle :: seqRd1 a r o.toNat) s)

/-- RD2 (R132). -/
def execRd2 (a : Addr7) (r o : Byte) (s : State) : Result :=
  .next (command (.rd2 a r o) (.requireIdle :: seqRd2 a r o.toNat) s)

/-- RDBURST (R133). -/
def execRdburst (a : Addr7) (r n : Byte) (s : State) : Result :=
  .next (command (.rdburst a r n) (.requireIdle :: seqBurst a r n.toNat) s)

/-- WR1 (R134). -/
def execWr1 (a : Addr7) (r v : Byte) (s : State) : Result :=
  .next (command (.wr1 a r v) (.requireIdle :: seqWr1 a r v) s)

/-- SETPTR (R140). -/
def execSetptr (a : Addr7) (r : Byte) (s : State) : Result :=
  .next (command (.setptr a r) (.requireIdle :: seqSetptr a r) s)

/-- RDCUR (R142). -/
def execRdcur (a : Addr7) (n : Byte) (s : State) : Result :=
  .next (command (.rdcur a n) (.requireIdle :: seqRdcur a n.toNat) s)

end Sys2Proof.Machine
end

