-- ==== Sys2Proof/Machine/Transport.lean ====
section
/-! DEFINITION. The meanings of the transport primitives START, WRB, RDA, RDNK and STOP (R101 to R105). Each is the host's
write of the command's word (R90); its one step, with its precondition and effect, is in `action` and `effect`. -/

namespace Sys2Proof.Machine

/-- START (R101). -/
def execStart (s : State) : Result := .next (command .start [.start] s)

/-- WRB (R102). -/
def execWrb (v : Byte) (s : State) : Result := .next (command (.wrb v) [.wrb v] s)

/-- RDA (R103). -/
def execRda (i : Byte) (s : State) : Result := .next (command (.rda i) [.rda i.toNat] s)

/-- RDNK (R104). -/
def execRdnk (i : Byte) (s : State) : Result := .next (command (.rdnk i) [.rdnk i.toNat] s)

/-- STOP (R105). -/
def execStop (s : State) : Result := .next (command .stop [.stop] s)

end Sys2Proof.Machine
end

