-- ==== Sys2Proof/Machine/VariantA.lean ====
section
/-! DEFINITION. The meanings of the variant-A commands (R161 to R171). A build of variant B refuses them as IllegalCommand
(R86 item 5, in `command`). -/

namespace Sys2Proof.Machine

/-- LDCAL_A (R161). -/
def execLdcalA (s : State) : Result := .next (command .ldcalA [.ldcalA] s)

/-- PACK_AT (R163). -/
def execPackAt (s : State) : Result := .next (command .packAt [.packAt] s)

/-- PACK_AP (R164). -/
def execPackAp (s : State) : Result := .next (command .packAp [.packAp] s)

/-- COMP_AT (R166). -/
def execCompAt (s : State) : Result := .next (command .compAt [.compAt] s)

/-- COMP_AP (R167). -/
def execCompAp (s : State) : Result := .next (command .compAp [.compAp] s)

/-- INIT_A (R170). -/
def execInitA (a : Addr7) (s : State) : Result := .next (command (.initA a) (seqInitA s.build a) s)

/-- SAMPLE_A (R171); CAL_OK, which the command reads, is the value at its start (log 18). -/
def execSampleA (a : Addr7) (s : State) : Result := .next (command (.sampleA a) (seqSampleA s.calOk a) s)

end Sys2Proof.Machine
end

