-- ==== Sys2Proof/Machine/VariantB.lean ====
section
/-! DEFINITION. The meanings of the variant-B commands (R201 to R211). A build of variant A refuses them as IllegalCommand
(R86 item 5, in `command`). -/

namespace Sys2Proof.Machine

/-- LDCAL_B (R201). -/
def execLdcalB (s : State) : Result := .next (command .ldcalB [.ldcalB] s)

/-- UNPACK_B (R203). -/
def execUnpackB (s : State) : Result := .next (command .unpackB [.unpackB] s)

/-- COMP_BT (R206). -/
def execCompBt (s : State) : Result := .next (command .compBt [.compBt] s)

/-- COMP_BP (R207). -/
def execCompBp (s : State) : Result := .next (command .compBp [.compBp] s)

/-- INIT_B (R210). -/
def execInitB (a : Addr7) (s : State) : Result := .next (command (.initB a) (seqInitB s.build a) s)

/-- SAMPLE_B (R211); CAL_OK, which the command reads, is the value at its start (log 18). -/
def execSampleB (a : Addr7) (s : State) : Result := .next (command (.sampleB a) (seqSampleB s.calOk a) s)

end Sys2Proof.Machine
end

