-- ==== Sys2Proof/Machine/Dispatch.lean ====
section
/-! DEFINITION. The dispatch from a command to its meaning: one arm per constructor. -/

namespace Sys2Proof.Machine

open Sys2Proof

def exec (i : Instr) (s : State) : Host.Outcome State Fault Refusal :=
  match i with
  | .start => Sys2Proof.Machine.execStart s
  | .wrb v => Sys2Proof.Machine.execWrb v s
  | .rda k => Sys2Proof.Machine.execRda k s
  | .rdnk k => Sys2Proof.Machine.execRdnk k s
  | .stop => Sys2Proof.Machine.execStop s
  | .rd1 a r o => Sys2Proof.Machine.execRd1 a r o s
  | .rd2 a r o => Sys2Proof.Machine.execRd2 a r o s
  | .rdburst a r n => Sys2Proof.Machine.execRdburst a r n s
  | .wr1 a r v => Sys2Proof.Machine.execWr1 a r v s
  | .setptr a r => Sys2Proof.Machine.execSetptr a r s
  | .rdcur a n => Sys2Proof.Machine.execRdcur a n s
  | .ldcalA => Sys2Proof.Machine.execLdcalA s
  | .packAt => Sys2Proof.Machine.execPackAt s
  | .packAp => Sys2Proof.Machine.execPackAp s
  | .compAt => Sys2Proof.Machine.execCompAt s
  | .compAp => Sys2Proof.Machine.execCompAp s
  | .initA a => Sys2Proof.Machine.execInitA a s
  | .sampleA a => Sys2Proof.Machine.execSampleA a s
  | .ldcalB => Sys2Proof.Machine.execLdcalB s
  | .unpackB => Sys2Proof.Machine.execUnpackB s
  | .compBt => Sys2Proof.Machine.execCompBt s
  | .compBp => Sys2Proof.Machine.execCompBp s
  | .initB a => Sys2Proof.Machine.execInitB a s
  | .sampleB a => Sys2Proof.Machine.execSampleB a s

end Sys2Proof.Machine
end

