-- ==== Sys2Proof/Machine/HostPort.lean ====
section
/-! DEFINITION. The host's side of the block: the register map (R22), legal and illegal accesses (R241, R247), what a read
returns (R31, R39, R71), and taking one input from outside (log 1). -/

namespace Sys2Proof.Machine

/-- The register at an offset from TCB_BASE, if the map has one (R22). -/
def hostReg? (offset : Word) : Option HostReg :=
  match offset.toNat with
  | 0x000 => some .cmd
  | 0x004 => some .status
  | 0x008 => some .rxdata
  | 0x00C => some .rx16
  | 0x010 => some .rawT
  | 0x014 => some .rawP
  | 0x018 => some .fine
  | 0x01C => some .tOut
  | 0x020 => some .pOut
  | 0x024 => some .faultCmd
  | 0x028 => some .xfer
  | n =>
    if n % 4 ≠ 0 then none
    else if 0x100 ≤ n ∧ n < 0x100 + 4 * Config.nmax then some (.rxbuf ((n - 0x100) / 4))
    else if 0x200 ≤ n ∧ n < 0x200 + 4 * 12 then some (.cal ((n - 0x200) / 4))
    else none

/-- The registers a host read of which returns any value while BUSY = 1 (R71). -/
def HostReg.isResult : HostReg → Bool
  | .rxdata | .rx16 | .rxbuf _ | .rawT | .rawP | .fine | .tOut | .pOut => true
  | .cmd | .status | .faultCmd | .xfer | .cal _ => false

/-- The bits a register defines; the others read 0 (R22, R26, R27, R31, R32; log 8). -/
def HostReg.mask : HostReg → Word
  | .rxdata | .rxbuf _ => 0x000000FF
  | .rx16 | .cal _ => 0x0000FFFF
  | .cmd | .status | .rawT | .rawP | .fine | .tOut | .pOut | .faultCmd | .xfer => 0xFFFFFFFF

/-- The contents of a register as a 32-bit word; `none` is ⊥ (R22, R39). CMD is not storage. -/
def State.regContents (s : State) : HostReg → Option Word
  | .cmd => none
  | .status => some s.statusWord
  | .rxdata => s.rxdata.map (·.setWidth 32)
  | .rx16 => s.rx16.map (·.setWidth 32)
  | .rawT => s.rawT
  | .rawP => s.rawP
  | .fine => s.fine
  | .tOut => s.tOut
  | .pOut => s.pOut
  | .faultCmd => some s.faultCmd
  | .xfer => some s.xferWord
  | .rxbuf i => (s.rx i).map (·.setWidth 32)
  | .cal k => (s.cal[k]?).map (·.setWidth 32)

/-- A host read returns a stated value. -/
def State.returnWord (v : Word) (s : State) : State := { s with hostData := some v }

/-- A host read returns any value within a mask: a free value of Config (R31, R39, R71; log 8). -/
def State.returnAny (mask : Word) (s : State) : State :=
  { s with hostData := some (Config.anyWord s.draws &&& mask), draws := s.draws + 1 }

/-- A read of a mapped register (R22): its contents, or any value where it is ⊥ or a result register of a busy block (R71).
Reading has no side effect on the block (R67). -/
def readReg (r : HostReg) (s : State) : State :=
  if s.busy && r.isResult then s.returnAny r.mask
  else match s.regContents r with
    | some v => s.returnWord v
    | none => s.returnAny r.mask

/-- FAULT_CMD of an illegal access: `0x80000000 + (offset mod 2^31)` (R240, D3). -/
def illegalAccessWord (offset : Word) : Word := (1 : BitVec 1) ++ offset.extractLsb' 0 31

/-- An access R22 does not admit: IllegalAccess whatever BUSY is (R241), not recorded in the fault state (R247). -/
def illegalAccess (offset : Word) (s : State) : State :=
  if s.faulted then s else s.raise .illegalAccess (illegalAccessWord offset)

/-- The host writes word w to CMD (R90): decode, then perform. -/
def writeCmd (w : Word) (s : State) : Result :=
  match decode w with
  | .ok i => exec i s
  | .error _ => .next (illegalWord w s)

/-- One host access (R22, R241). What an illegal read returns is not stated: any value (U26, log 14). -/
def hostAccess (a : HostAccess) (s : State) : Result :=
  match a with
  | .write offset bytes data =>
    if bytes = 4 ∧ hostReg? offset = some .cmd then writeCmd data s
    else .next (illegalAccess offset s)
  | .read offset bytes =>
    match if bytes = 4 then hostReg? offset else none with
    | none | some .cmd => .next ((illegalAccess offset s).returnAny 0xFFFFFFFF)
    | some r => .next (resume (readReg r s))

/-- The engine has a move to make that waits for no one. -/
def State.canMove (s : State) : Bool := s.busy && s.pend.isNone

/-- A `hold` is the next input: the engine makes the moves it allows, and once none is left to make it is over (log 2). -/
def takeHold (n : Nat) (more : List Input) (s : State) : State :=
  if n ≠ 0 ∧ s.canMove then resume s else s.withInputs more

/-- Taking the next input (log 1). With none left the engine goes on alone; waiting for a completion that never comes is a
hang, a step that changes nothing (R106). -/
def advance (s : State) : Result :=
  match s.inputs with
  | [] => .next (resume s)
  | .hold n :: more => .next (takeHold n more s)
  | .reset :: more => .next (s.withInputs more).hardReset
  | .complete ack d :: more =>
    if s.canMove then .next (resume s) else .next (takeCompletion ack d (s.withInputs more))
  | .access a :: more => hostAccess a (s.withInputs more)

/-- The variant a word's command belongs to, if it has one: the build it can run in (log 6). -/
def wordVariant (w : Word) (v : Variant) : Variant :=
  match decode w with
  | .ok i => i.variant?.getD v
  | .error _ => v

/-- The state whose next input is the host's write of word w to CMD, in a build that has the command (log 6). -/
def placeCommand (w : Word) (s : State) : State :=
  { s with
    build  := { s.build with variant := wordVariant w s.build.variant }
    inputs := .access (.write 0 4 w) :: s.inputs }

end Sys2Proof.Machine
end

