-- ==== Sys2Proof/Machine/Step.lean ====
section
/-! DEFINITION. One step of the machine: the next input from outside is taken and the engine runs on (R17, R69, R90; log 1). -/

namespace Sys2Proof.Machine

/-- One step. It never faults or refuses: a fault of the block is a next state (R244, log 22). -/
def step (s : State) : Host.Outcome State Fault Refusal := advance s

/-- The host's write of a table word to CMD is placed as the next input, in a build that has the command (log 6). -/
def State.withFetchWord (s : State) (nbits w : Nat) : State :=
  placeCommand (BitVec.ofNat 32 (w % 2 ^ nbits)) s

end Sys2Proof.Machine
end

