-- ==== Sys2Proof/Machine/Units.lean ====
section
/-! DEFINITION. The physical units of the outputs as exact rationals (R168, R208). The block computes none of them: they say
what T_OUT and P_OUT mean to the host. -/

namespace Sys2Proof.Machine

/-- Variant A: °C = T_OUT / 10 (R168). -/
def celsiusA (tOut : Word) : ℚ := (tOut.toInt : ℚ) / 10

/-- Variant A: hPa = P_OUT / 100 (R168). -/
def hectopascalA (pOut : Word) : ℚ := (pOut.toInt : ℚ) / 100

/-- Variant B: °C = T_OUT / 100 (R208). -/
def celsiusB (tOut : Word) : ℚ := (tOut.toInt : ℚ) / 100

/-- Variant B: hPa = P_OUT / 256 / 100, P_OUT read as unsigned (R208). -/
def hectopascalB (pOut : Word) : ℚ := (pOut.toNat : ℚ) / 256 / 100

end Sys2Proof.Machine
end

