-- ==== Sys2Proof/Safety.lean ====
section
/-! DEFINITION. The terms claims use: a block ready for a command, the symbols a composite requests and the events they
leave, the phase a trace leads to (R107, R109), the machine's invariant, what a slave's acknowledge bits may touch (R108),
and the compensation formulas in fixed-width arithmetic (R10 to R13 under `wrap`). -/

namespace Sys2Proof.Machine

/-- The block takes a command and its engine is not told to yield: no fault, not busy, no `hold` next (R24, R90). -/
abbrev State.Ready (s : State) : Prop :=
  s.faulted = false ∧ s.busy = false ∧ engineTurn s.inputs = some s.inputs

/-- A command is over: what R24 says of the handshake and R73 of the word, with nothing else changed. -/
def State.ended (s : State) : State := { s with busy := false, done := true, cmd := none, mseq := [] }

/-- The fault state (R244): what fault entry with code c and recorded word w leaves. -/
def faultState (c : FaultCode) (w : Word) (s : State) : State :=
  { s with
    faulted := true, faultCode := c, faultCmd := w
    busy := false, done := true, mseq := [], pend := none, cmd := none }

/-- A row of the opcode table: `word &&& mask = pattern`, the range of ARG (R84), the variant it belongs to. -/
structure CommandRow where
  pattern : Word
  mask    : Word
  argMin  : Nat
  argMax  : Nat
  variant : Option Variant
deriving DecidableEq, Repr

/-- The opcode table (R83, spec/opcode_table.json): a pattern of bits that an unused field or RSV breaks, and the ranges of
R84. -/
def commandRows : List CommandRow := [
  ⟨0x00000001, 0xFFFFFFFF, 0, 255, none⟩, ⟨0x00000002, 0x00FFFFFF, 0, 255, none⟩,
  ⟨0x00000003, 0x00FFFFFF, 0, 31, none⟩, ⟨0x00000004, 0x00FFFFFF, 0, 31, none⟩,
  ⟨0x00000005, 0xFFFFFFFF, 0, 255, none⟩, ⟨0x00000010, 0x000080FF, 0, 31, none⟩,
  ⟨0x00000011, 0x000080FF, 0, 30, none⟩, ⟨0x00000012, 0x000080FF, 1, 32, none⟩,
  ⟨0x00000013, 0x000080FF, 0, 255, none⟩, ⟨0x00000014, 0xFF0080FF, 0, 255, none⟩,
  ⟨0x00000015, 0x00FF80FF, 1, 32, none⟩, ⟨0x00000020, 0xFFFFFFFF, 0, 255, some .a⟩,
  ⟨0x00000021, 0xFFFFFFFF, 0, 255, some .a⟩, ⟨0x00000022, 0xFFFFFFFF, 0, 255, some .a⟩,
  ⟨0x00000023, 0xFFFFFFFF, 0, 255, some .a⟩, ⟨0x00000024, 0xFFFFFFFF, 0, 255, some .a⟩,
  ⟨0x00000028, 0xFFFF80FF, 0, 255, some .a⟩, ⟨0x00000029, 0xFFFF80FF, 0, 255, some .a⟩,
  ⟨0x00000030, 0xFFFFFFFF, 0, 255, some .b⟩, ⟨0x00000031, 0xFFFFFFFF, 0, 255, some .b⟩,
  ⟨0x00000033, 0xFFFFFFFF, 0, 255, some .b⟩, ⟨0x00000034, 0xFFFFFFFF, 0, 255, some .b⟩,
  ⟨0x00000038, 0xFFFF80FF, 0, 255, some .b⟩, ⟨0x00000039, 0xFFFF80FF, 0, 255, some .b⟩]

/-- A word R86 does not call illegal in a build of variant v, read off the opcode table. -/
def legalWord (v : Variant) (w : Word) : Bool :=
  commandRows.any fun row =>
    w &&& row.mask == row.pattern && row.argMin ≤ (w >>> 24).toNat && (w >>> 24).toNat ≤ row.argMax
      && (row.variant == none || row.variant == some v)

/-- An offset of the register map (R22). -/
def mappedOffset (o : Word) : Bool :=
  o.toNat % 4 == 0
    && (o.toNat ≤ 0x28 || (0x100 ≤ o.toNat && o.toNat < 0x180) || (0x200 ≤ o.toNat && o.toNat ≤ 0x22C))

/-- An access R22 does not admit (R241). -/
def illegalHostAccess : HostAccess → Bool
  | .read o bytes => bytes != 4 || !mappedOffset o || o == 0
  | .write o bytes _ => bytes != 4 || o != 0

/-- The offset of an access (R22). -/
def HostAccess.offset : HostAccess → Word
  | .read o _ => o
  | .write o _ _ => o

/-- The environment's answers to the next requests: an acknowledge bit and a byte each (R100). -/
def answers (cs : List (Bool × Byte)) : List Input := cs.map fun c => .complete c.1 c.2

/-- The events that answered requests leave (R100). -/
def eventsOf (syms : List Sym) (cs : List (Bool × Byte)) : List BusEvent :=
  List.zipWith (fun sym c => sym.event c.1 c.2) syms cs

/-- n reads with ACK, one read with NACK, a STOP (R135). -/
def symsBytes (n : Nat) : List Sym := List.replicate n (.read true) ++ [.read false, .stop]

/-- The requests of a read of n + 1 bytes from register r of device a (R131 to R133). -/
def symsRead (a : Addr7) (r : Byte) (n : Nat) : List Sym :=
  [.start, .write (abyte a 0), .write r, .repStart, .write (abyte a 1)] ++ symsBytes n

/-- The requests of a read of n + 1 bytes from the device's current register (R142). -/
def symsCurrent (a : Addr7) (n : Nat) : List Sym := [.start, .write (abyte a 1)] ++ symsBytes n

/-- The requests of a write of register r of device a (R134). -/
def symsWrite (a : Addr7) (r v : Byte) : List Sym := [.start, .write (abyte a 0), .write r, .write v, .stop]

/-- The requests of SETPTR (R140). -/
def symsPointer (a : Addr7) (r : Byte) : List Sym := [.start, .write (abyte a 0), .write r, .stop]

/-- The requests of INIT_A (R170). -/
def symsInitA (b : Build) (a : Addr7) : List Sym :=
  [.delay b.tPwronA] ++ (List.replicate b.nIdReads (symsRead a b.idRegA 0)).flatten ++ symsRead a 0xAA 21

/-- The requests of SAMPLE_A (R171). -/
def symsSampleA (a : Addr7) : List Sym :=
  symsWrite a 0xF4 0x2E ++ [.delay 5] ++ symsRead a 0xF6 1
    ++ symsWrite a 0xF4 0x34 ++ [.delay 8] ++ symsRead a 0xF6 1 ++ symsRead a 0xF8 0

/-- The requests of INIT_B (R210). -/
def symsInitB (b : Build) (a : Addr7) : List Sym :=
  [.delay b.tPwronB]
    ++ (match b.bCfgOrder with
        | .f4First => symsWrite a 0xF4 b.cfgF4 ++ symsWrite a 0xF5 b.cfgF5
        | .f5First => symsWrite a 0xF5 b.cfgF5 ++ symsWrite a 0xF4 b.cfgF4)
    ++ ((List.range 12).map fun k => symsRead a (BitVec.ofNat 8 (0x88 + 2 * k)) 1).flatten

/-- The phase a bus event leads to, where it may happen at all (R107). A delay is no bus traffic. -/
def busPhase (t : TState) (e : BusEvent) : Option TState :=
  match t, e with
  | t, .delay _ => some t
  | .idle, .start => some .started
  | .started, .write b _ => if b.getLsbD 0 then some .rx else some .tx
  | .tx, .write _ _ => some .tx
  | .tx, .repStart => some .started
  | .tx, .stop => some .idle
  | .rx, .read _ true => some .rx
  | .rx, .read _ false => some .rxend
  | .rxend, .repStart => some .started
  | .rxend, .stop => some .idle
  | _, _ => none

/-- The phase a trace leads to from a phase, if every event of it may happen (R107, R109). -/
def tracePhase (t : TState) : List BusEvent → Option TState
  | [] => some t
  | e :: more =>
    match busPhase t e with
    | some t' => tracePhase t' more
    | none => none

/-- A trace without its delays: the bus traffic alone (R37). -/
def busTraffic (tr : List BusEvent) : List BusEvent :=
  tr.filter fun e => match e with
    | .delay _ => false
    | .start | .repStart | .stop | .write _ _ | .read _ _ => true

/-- R109's five properties of bus traffic that leads to phase t, in its order. -/
structure Transactions (ev : List BusEvent) (t : TState) : Prop where
  /-- 1: every S comes where no transaction is open, every P where one is, and one is open at the end unless t is IDLE. -/
  startsClosed : ∀ pre post, ev = pre ++ .start :: post → pre.count .start = pre.count .stop
  stopsOpen : ∀ pre post, ev = pre ++ .stop :: post → pre.count .start = pre.count .stop + 1
  balanced : ev.count .start = ev.count .stop + (if t = .idle then 0 else 1)
  /-- 2: an Sr stands between an S and its P. -/
  repStartsOpen : ∀ pre post, ev = pre ++ .repStart :: post → pre.count .start = pre.count .stop + 1
  /-- 3: the event after an S or Sr is an address byte. -/
  addressed : ∀ pre x y post, ev = pre ++ x :: y :: post → (x = .start ∨ x = .repStart) → ∃ b ack, y = .write b ack
  /-- 4: after a READ address byte come reads only, all but the last with ACK, up to an Sr or P, before which the last read
  has NACK. -/
  reads : ∀ pre x b ack mid post, ev = pre ++ x :: .write b ack :: (mid ++ post) → (x = .start ∨ x = .repStart) →
    .repStart ∉ mid → .stop ∉ mid → b.toNat % 2 = 1 →
    (∀ e ∈ mid, ∃ d m, e = .read d m) ∧ (∀ e ∈ mid.dropLast, ∃ d, e = .read d true) ∧
    ((post.head? = some .repStart ∨ post.head? = some .stop) → ∃ d, mid.getLast? = some (.read d false))
  /-- 5: after a WRITE address byte come written bytes only, up to an Sr or P. -/
  writes : ∀ pre x b ack mid post, ev = pre ++ x :: .write b ack :: (mid ++ post) → (x = .start ∨ x = .repStart) →
    .repStart ∉ mid → .stop ∉ mid → b.toNat % 2 = 0 → ∀ e ∈ mid, ∃ d a, e = .write d a

/-- The RXBUF indexes a step of MSEQ uses are in the buffer (R84). -/
def MStep.inBuffer : MStep → Bool
  | .rda i | .rdnk i => i < Config.nmax
  | .latchRx16 o => o + 1 < Config.nmax
  | _ => true

/-- A step of MSEQ belongs to the variant built (R86 item 5). -/
def MStep.builtIn (v : Variant) : MStep → Bool
  | .ldcalA | .packAt | .packAp | .compAt | .compAp => v = .a
  | .ldcalB | .unpackB | .compBt | .compBp => v = .b
  | _ => true

/-- A raw sample, where there is one, has at most 20 bits (R28). -/
def rawInRange (r : Option Word) : Bool :=
  match r with
  | none => true
  | some v => v.toNat < 2 ^ 20

/-- What holds in every state a run reaches. -/
structure State.Inv (s : State) : Prop where
  /-- R7: at least two identity reads. -/
  buildWf : s.build.wf
  /-- R24, R90: BUSY says that steps remain. -/
  busyIff : s.busy = !s.mseq.isEmpty
  /-- R24, R244: a busy block is neither done nor in the fault state. -/
  busyClear : s.busy = true → s.done = false ∧ s.faulted = false
  /-- R73, R90: a command word is held exactly while its command is in progress. -/
  cmdHeld : s.cmd.isSome = s.busy
  /-- R36, R100: an outstanding request is the one the step at the head of MSEQ makes. -/
  pendHead : ∀ sym, s.pend = some sym → ∃ m rest, s.mseq = m :: rest ∧ action m s = .request sym
  /-- R84: the steps of MSEQ stay in the buffer. -/
  seqInBuffer : s.mseq.all MStep.inBuffer = true
  /-- R86: the steps of MSEQ belong to the variant built. -/
  seqBuilt : s.mseq.all (MStep.builtIn s.build.variant) = true
  /-- R240, R244: a fault code is recorded exactly in the fault state, which is done. -/
  faultIff : s.faulted = true ↔ s.faultCode ≠ .none
  faultDone : s.faulted = true → s.done = true
  /-- R35, C15: a valid fine temperature was written, under a calibration that passed. -/
  fineWritten : s.fineValid = true → s.calOk = true ∧ s.fine.isSome = true
  /-- R32, R34, R39: before a calibration load CAL holds zeros and CAL_OK is 0. -/
  calUnloaded : s.drvState = .uninit → s.calOk = false ∧ s.cal = Vector.replicate 12 0
  /-- R32: in variant A CAL[11] reads 0. -/
  calLastA : s.build.variant = .a → s.cal[11] = 0
  /-- R28. -/
  rawT20 : rawInRange s.rawT = true
  rawP20 : rawInRange s.rawP = true
  /-- R109: the trace obeys R107 and leads to TSTATE. -/
  tracePhase : tracePhase .idle s.trace = some s.tstate

/-- An input with its acknowledge bit taken away. -/
def Input.eraseAck : Input → Input
  | .complete _ d => .complete false d
  | .access a => .access a
  | .reset => .reset
  | .hold n => .hold n

/-- An event with the slave's acknowledge bit taken away. -/
def BusEvent.eraseAck : BusEvent → BusEvent
  | .write b _ => .write b false
  | .start => .start
  | .repStart => .repStart
  | .stop => .stop
  | .read d m => .read d m
  | .delay ms => .delay ms

/-- A state without the slaves' acknowledge bits, recorded or still to come (R108). -/
def State.eraseAcks (s : State) : State :=
  { s with inputs := s.inputs.map Input.eraseAck, trace := s.trace.map BusEvent.eraseAck }

/-- Commands performed one after the other, each on the state the one before left (R136). -/
def execAll : List Instr → State → Result
  | [], s => .next s
  | i :: more, s =>
    match exec i s with
    | .next t => execAll more t
    | .fault r => .fault r
    | .refused r => .refused r

/-- `RDA o; …; RDNK o+n; STOP` as commands. -/
def byteCommands (o : Nat) : Nat → List Instr
  | 0 => [.rdnk (BitVec.ofNat 8 o), .stop]
  | n + 1 => .rda (BitVec.ofNat 8 o) :: byteCommands (o + 1) n

/-- The primitives a composite stands for (R131 to R134, R140, R142, R136); none for other commands. -/
def primitives : Instr → List Instr
  | .rd1 a r o => [.start, addrW a, .wrb r, .start, addrR a] ++ byteCommands o.toNat 0
  | .rd2 a r o => [.start, addrW a, .wrb r, .start, addrR a] ++ byteCommands o.toNat 1
  | .rdburst a r n => [.start, addrW a, .wrb r, .start, addrR a] ++ byteCommands 0 (n.toNat - 1)
  | .wr1 a r v => [.start, addrW a, .wrb r, .wrb v, .stop]
  | .setptr a r => [.start, addrW a, .wrb r, .stop]
  | .rdcur a n => [.start, addrR a] ++ byteCommands 0 (n.toNat - 1)
  | _ => []

/-- The state after a request of step m that was answered with an acknowledge bit and a byte, the steps `rest` remaining: the
event, PEND and the handshake of R100 and R24, and what R101 to R105 write. RXBUF is that of `rxbuf`. -/
def afterAnswer (m : MStep) (sym : Sym) (ack : Bool) (d : Byte) (rest : List MStep) (more : List Input)
    (rxbuf : Vector (Option Byte) Config.nmax) (s : State) : State :=
  { s with
    inputs := more
    pend := none
    mseq := rest
    busy := !rest.isEmpty
    done := rest.isEmpty
    cmd := if rest = [] then none else s.cmd
    trace := s.trace ++ [match sym with
      | .start => .start
      | .repStart => .repStart
      | .stop => .stop
      | .write b => .write b ack
      | .read a => .read d a
      | .delay ms => .delay ms]
    tstate := match m with
      | .start => .started
      | .wrb b => if s.tstate = .started then (if b.toNat % 2 = 0 then .tx else .rx) else s.tstate
      | .rdnk _ => .rxend
      | .stop => .idle
      | _ => s.tstate
    curAddr := match m with
      | .wrb b => if s.tstate = .started then BitVec.ofNat 7 (b.toNat / 2) else s.curAddr
      | _ => s.curAddr
    curDir := match m with
      | .wrb b => if s.tstate = .started then (if b.toNat % 2 = 0 then .write else .read) else s.curDir
      | _ => s.curDir
    rxdata := match m with
      | .rda _ | .rdnk _ => some d
      | _ => s.rxdata
    rxbuf := rxbuf }

/-- v lies in the signed range of 32 bits (R10). -/
def fits32 (v : Int) : Prop := -2147483648 ≤ v ∧ v ≤ 2147483647

/-- v lies in the signed range of 64 bits (R10). -/
def fits64 (v : Int) : Prop := -9223372036854775808 ≤ v ∧ v ≤ 9223372036854775807

/-- The exact results of R166's signed operations, in the order of its lines; none after a zero divisor. -/
def exactAT (ut ac5 ac6 mc md : Int) : List Int :=
  let d := ut - ac6
  let m := d * ac5
  let x1 := m >>> 15
  let den := x1 + md
  let b5 := x1 + (mc * 2048).tdiv den
  [d, m, den] ++ if den = 0 then [] else [mc * 2048, (mc * 2048).tdiv den, b5, b5 + 8]

/-- The exact results of R167's signed operations, in the order of its lines; none after a zero divisor. -/
def exactAP (up b5 ac1 ac2 ac3 ac4 b1 b2 : Int) : List Int :=
  let b6 := b5 - 4000
  let sq := b6 * b6
  let m1 := b2 * (sq >>> 12)
  let m2 := ac2 * b6
  let x3 := (m1 >>> 11) + (m2 >>> 11)
  let sum := ac1 * 4 + x3
  let b3 := (sum + 2) >>> 2
  let n1 := ac3 * b6
  let n2 := b1 * (sq >>> 12)
  let y := (n1 >>> 13) + (n2 >>> 16)
  let biased := ((y + 2) >>> 2) + 32768
  let b4 := (ac4 * (biased % 2 ^ 32) % 2 ^ 32) >>> 15
  let b7 := ((up - b3) % 2 ^ 32 * 50000) % 2 ^ 32
  let q := if b7 < 2 ^ 31 then b7 * 2 % 2 ^ 32 / b4 else b7 / b4 * 2 % 2 ^ 32
  let p := if q < 2 ^ 31 then q else q - 2 ^ 32
  let h := p >>> 8
  let z := ((h * h * 3038) >>> 16) + ((-7357 * p) >>> 16)
  [b6, sq, m1, m2, x3, ac1 * 4, sum, sum + 2, n1, n2, y, y + 2, biased]
    ++ if b4 = 0 then [] else [h * h, h * h * 3038, -7357 * p, z, z + 3791, p + ((z + 3791) >>> 4)]

/-- The exact results of R206's signed operations, in the order of its lines. -/
def exactBT (adcT t1 t2 t3 : Int) : List Int :=
  let d := (adcT >>> 3) - t1 * 2
  let t := (adcT >>> 4) - t1
  let m := ((t * t) >>> 12) * t3
  let tFine := ((d * t2) >>> 11) + (m >>> 14)
  [t1 * 2, d, d * t2, t, t * t, m, tFine, tFine * 5, tFine * 5 + 128]

/-- The exact results of R207's signed operations, in the order of its lines; none after a zero denominator. -/
def exactBP (adcP tFine p1 p2 p3 p4 p5 p6 p7 p8 p9 : Int) : List Int :=
  let v := tFine - 128000
  let a := v * v * p6 + v * p5 * 2 ^ 17
  let var2 := a + p4 * 2 ^ 35
  let w := ((v * v * p3) >>> 8) + v * p2 * 2 ^ 12
  let n := (2 ^ 47 + w) * p1
  let den := n >>> 33
  let u := 1048576 - adcP
  let num := u * 2 ^ 31 - var2
  let p := (num * 3125).tdiv den
  let h := p >>> 13
  let sum := p + ((p9 * h * h) >>> 25)
  let total := sum + ((p8 * p) >>> 19)
  [v, v * v, v * v * p6, v * p5, v * p5 * 2 ^ 17, a, p4 * 2 ^ 35, var2, v * v * p3, v * p2, v * p2 * 2 ^ 12, w,
    2 ^ 47 + w, n]
    ++ if den = 0 then [] else
      [u, u * 2 ^ 31, num, num * 3125, p, p9 * h, p9 * h * h, p8 * p, sum, total, p7 * 2 ^ 4, (total >>> 8) + p7 * 2 ^ 4]

/-- R166 in 32-bit two's complement: B5 and T, or none where the divisor is 0. -/
def refAT (ut : Word) (ac5 ac6 mc md : Half) : Option (Word × Word) :=
  let x1 := ((ut - ac6.zeroExtend 32) * ac5.zeroExtend 32).sshiftRight 15
  let den := x1 + md.signExtend 32
  if den = 0 then none
  else
    let b5 := x1 + (mc.signExtend 32 <<< 11).sdiv den
    some (b5, (b5 + 8).sshiftRight 4)

/-- R167 in 32-bit two's complement, B4 and B7 unsigned: p, or none where B4 is 0. -/
def refAP (up b5 : Word) (ac1 ac2 ac3 ac4 b1 b2 : Half) : Option Word :=
  let b6 := b5 - 4000
  let sq := (b6 * b6).sshiftRight 12
  let x3 := (b2.signExtend 32 * sq).sshiftRight 11 + (ac2.signExtend 32 * b6).sshiftRight 11
  let b3 := (ac1.signExtend 32 * 4 + x3 + 2).sshiftRight 2
  let y3 := ((ac3.signExtend 32 * b6).sshiftRight 13 + (b1.signExtend 32 * sq).sshiftRight 16 + 2).sshiftRight 2
  let b4 := (ac4.zeroExtend 32 * (y3 + 32768)) >>> 15
  let b7 := (up - b3) * 50000
  if b4 = 0 then none
  else
    let p := if b7 < 0x80000000 then (b7 * 2) / b4 else (b7 / b4) * 2
    let z1 := (p.sshiftRight 8 * p.sshiftRight 8 * 3038).sshiftRight 16
    let z2 := (-7357 * p).sshiftRight 16
    some (p + (z1 + z2 + 3791).sshiftRight 4)

/-- R206 in 32-bit two's complement: t_fine and T. -/
def refBT (adcT : Word) (t1 t2 t3 : Half) : Word × Word :=
  let var1 := ((adcT.sshiftRight 3 - (t1.zeroExtend 32 <<< 1)) * t2.signExtend 32).sshiftRight 11
  let t := adcT.sshiftRight 4 - t1.zeroExtend 32
  let var2 := ((t * t).sshiftRight 12 * t3.signExtend 32).sshiftRight 14
  let tFine := var1 + var2
  (tFine, (tFine * 5 + 128).sshiftRight 8)

/-- R207's denominator in 64-bit two's complement. -/
def refBPden (tFine : Word) (p1 p2 p3 : Half) : BitVec 64 :=
  let v := tFine.signExtend 64 - 128000
  let w := (v * v * p3.signExtend 64).sshiftRight 8 + ((v * p2.signExtend 64) <<< 12)
  (((1 <<< 47) + w) * p1.zeroExtend 64).sshiftRight 33

/-- R207 in 64-bit two's complement, for a nonzero denominator: the 32 bits stored in P_OUT. -/
def refBP (adcP tFine : Word) (p1 p2 p3 p4 p5 p6 p7 p8 p9 : Half) : Word :=
  let v := tFine.signExtend 64 - 128000
  let var2 := v * v * p6.signExtend 64 + ((v * p5.signExtend 64) <<< 17) + (p4.signExtend 64 <<< 35)
  let p := ((((1048576 - adcP.zeroExtend 64) <<< 31) - var2) * 3125).sdiv (refBPden tFine p1 p2 p3)
  let v1 := (p9.signExtend 64 * p.sshiftRight 13 * p.sshiftRight 13).sshiftRight 25
  let v2 := (p8.signExtend 64 * p).sshiftRight 19
  ((p + v1 + v2).sshiftRight 8 + (p7.signExtend 64 <<< 4)).setWidth 32

end Sys2Proof.Machine
end

