-- ==== Sys2Proof/Certificates/Slice0/Obligations.lean ====
section
/-! DEFINITION. The statements about HPA-TCB, from the numbered rules of spec/. -/

open Sys2Proof Sys2Proof.Machine

/-! ### Reset, the invariant, the step -/

/-- R39: the values of every register, hidden state and trace after reset, for any build. -/
def Obligations.ResetValues : Prop :=
  ∀ b : Build,
    (State.resetOf b).statusWord = (match b.variant with | .a => 0x00000000 | .b => 0x00100000) ∧
    (State.resetOf b).rxdata = none ∧ (State.resetOf b).rx16 = none ∧
    (State.resetOf b).rawT = none ∧ (State.resetOf b).rawP = none ∧ (State.resetOf b).fine = none ∧
    (State.resetOf b).tOut = none ∧ (State.resetOf b).pOut = none ∧
    (State.resetOf b).faultCmd = 0 ∧ (State.resetOf b).xferWord = 0 ∧
    (∀ i, (State.resetOf b).rx i = none) ∧ (∀ k : Fin 12, (State.resetOf b).cal[k] = 0) ∧
    (State.resetOf b).mseq = [] ∧ (State.resetOf b).pend = none ∧ (State.resetOf b).faulted = false ∧
    (State.resetOf b).trace = []

/-- R270: a reset puts every piece of the block's state at its reset value in any state, busy, faulted or inside a transaction.
That the model's own fields `inputs`, `hostData` and `draws`, outside the block, keep their values is the model's choice
(log 23). -/
def Obligations.ResetEvent : Prop :=
  ∀ (s : State) (more : List Input), s.inputs = .reset :: more →
    step s = .next { State.resetOf s.build with inputs := more, hostData := s.hostData, draws := s.draws }

/-- The invariant holds at reset (of any build with at least two identity reads). -/
def Obligations.InvariantAtReset : Prop :=
  State.reset.Inv ∧ ∀ b : Build, b.wf → (State.resetOf b).Inv

/-- Every step keeps the invariant. -/
def Obligations.InvariantKeptByStep : Prop :=
  ∀ s t : State, s.Inv → step s = .next t → t.Inv

/-- No step stops the machine: the faults of the block are states (R244), a withheld completion is a wait (R106). -/
def Obligations.StepAlwaysAnswersNext : Prop :=
  ∀ s : State, ∃ t, step s = .next t

/-- R20: the build options are configuration; no step writes them. -/
def Obligations.BuildNeverWritten : Prop :=
  ∀ s t : State, step s = .next t → t.build = s.build

/-- When the next input is the host's write to CMD of a word that decodes to i, the step is exec of i after that input. -/
def Obligations.StepRunsDecodedInstruction : Prop :=
  ∀ (s : State) (w : Word) (i : Instr) (more : List Input),
    s.inputs = .access (.write 0 4 w) :: more → decode w = .ok i →
    step s = exec i { s with inputs := more }

/-! ### Encoding -/

/-- Words of V10 and R88 decode to the commands they stand for. -/
def Obligations.KnownWordsDecode : Prop :=
  decode 0xEE000002 = .ok (.wrb 0xEE) ∧ decode 0x03000003 = .ok (.rda 3) ∧ decode 0x00000005 = .ok .stop ∧
  decode 0x16AA7712 = .ok (.rdburst 0x77 0xAA 22) ∧ decode 0x2EF47713 = .ok (.wr1 0x77 0xF4 0x2E) ∧
  decode 0x03006815 = .ok (.rdcur 0x68 3) ∧ decode 0x00000024 = .ok .compAp ∧
  decode 0x00007729 = .ok (.sampleA 0x77) ∧ decode 0x00000033 = .ok .compBt ∧ decode 0x00007638 = .ok (.initB 0x76)

/-- R88: each command assembles to `ARG<<24 | REG<<16 | ADDR7<<8 | OP`, with unused fields 0 (R83's opcodes). -/
def Obligations.EncodingLayout : Prop :=
  ∀ i : Instr, (encode i).toNat = match i with
    | .start => 0x01
    | .wrb v => v.toNat * 2 ^ 24 + 0x02
    | .rda k => k.toNat * 2 ^ 24 + 0x03
    | .rdnk k => k.toNat * 2 ^ 24 + 0x04
    | .stop => 0x05
    | .rd1 a r o => o.toNat * 2 ^ 24 + r.toNat * 2 ^ 16 + a.toNat * 2 ^ 8 + 0x10
    | .rd2 a r o => o.toNat * 2 ^ 24 + r.toNat * 2 ^ 16 + a.toNat * 2 ^ 8 + 0x11
    | .rdburst a r n => n.toNat * 2 ^ 24 + r.toNat * 2 ^ 16 + a.toNat * 2 ^ 8 + 0x12
    | .wr1 a r v => v.toNat * 2 ^ 24 + r.toNat * 2 ^ 16 + a.toNat * 2 ^ 8 + 0x13
    | .setptr a r => r.toNat * 2 ^ 16 + a.toNat * 2 ^ 8 + 0x14
    | .rdcur a n => n.toNat * 2 ^ 24 + a.toNat * 2 ^ 8 + 0x15
    | .ldcalA => 0x20
    | .packAt => 0x21
    | .packAp => 0x22
    | .compAt => 0x23
    | .compAp => 0x24
    | .initA a => a.toNat * 2 ^ 8 + 0x28
    | .sampleA a => a.toNat * 2 ^ 8 + 0x29
    | .ldcalB => 0x30
    | .unpackB => 0x31
    | .compBt => 0x33
    | .compBp => 0x34
    | .initB a => a.toNat * 2 ^ 8 + 0x38
    | .sampleB a => a.toNat * 2 ^ 8 + 0x39

/-- Decoding the word of a well-formed command gives the command back, whatever its operands. -/
def Obligations.DecodeOfEncode : Prop :=
  ∀ i : Instr, i.wf = true → decode (encode i) = .ok i

/-- A word that decodes is the word of its command, and the command is well formed: no bit of it is ignored. -/
def Obligations.EncodeOfDecode : Prop :=
  ∀ (w : Word) (i : Instr), decode w = .ok i → encode i = w ∧ i.wf = true

/-- The words that decode to a command of the build are those the opcode table's patterns, R84's ranges and the build
admit (R83, R84, R86). -/
def Obligations.LegalWordsAreTheTable : Prop :=
  ∀ (v : Variant) (w : Word),
    legalWord v w = true ↔ ∃ i, decode w = .ok i ∧ i.builtIn v = true

/-! ### Fault entry, the handshake, the host port -/

/-- R86: an illegal word, and nothing else, raises IllegalCommand with no other effect. -/
def Obligations.IllegalWordRaisesIllegalCommand : Prop :=
  ∀ (s : State) (w : Word) (more : List Input),
    s.inputs = .access (.write 0 4 w) :: more → s.faulted = false → s.busy = false →
    legalWord s.build.variant w = false →
    step s = .next (faultState .illegalCommand w { s with inputs := more })

/-- R242: a CMD write of any word while BUSY = 1 raises CmdWhileBusy and abandons the command. -/
def Obligations.WriteWhileBusyFaults : Prop :=
  ∀ (s : State) (w : Word) (more : List Input),
    s.inputs = .access (.write 0 4 w) :: more → s.faulted = false → s.busy = true →
    step s = .next (faultState .cmdWhileBusy w { s with inputs := more })

/-- R247: in the fault state every step but reset changes nothing of the block. -/
def Obligations.FaultStateIsSticky : Prop :=
  ∀ s t : State, s.Inv → s.faulted = true → (∀ more, s.inputs ≠ .reset :: more) → step s = .next t →
    t = { s with inputs := t.inputs, hostData := t.hostData, draws := t.draws }

/-- R241: every access outside the map raises IllegalAccess whatever BUSY is; FAULT_CMD is 0x80000000 + offset mod 2^31. What
an illegal read returns is any value (log 14). -/
def Obligations.IllegalAccessFaults : Prop :=
  ∀ (s : State) (a : HostAccess) (more : List Input),
    s.inputs = .access a :: more → s.faulted = false → illegalHostAccess a = true →
    ∃ t, step s = .next t ∧
      t = { faultState .illegalAccess (BitVec.ofNat 32 (2 ^ 31 + a.offset.toNat % 2 ^ 31)) { s with inputs := more } with
            hostData := t.hostData, draws := t.draws }

/-- R23, R30, R240: where the fields of STATUS and XFER stand and which numbers their values have; every other bit reads 0. -/
def Obligations.StatusAndXferLayout : Prop :=
  ∀ s : State,
    s.statusWord.toNat =
      s.busy.toNat + 2 * s.done.toNat + 4 * s.faulted.toNat
        + 2 ^ 4 * (match s.tstate with | .idle => 0 | .started => 1 | .tx => 2 | .rx => 3 | .rxend => 4)
        + 2 ^ 8 * (match s.drvState with | .uninit => 0 | .calLoaded => 1 | .ready => 2)
        + 2 ^ 10 * s.calOk.toNat + 2 ^ 11 * s.fineValid.toNat
        + 2 ^ 16 * (match s.faultCode with
          | .none => 0
          | .illegalCommand => 1
          | .protocolViolation => 2
          | .cmdWhileBusy => 3
          | .staleFine => 4
          | .divideByZero => 5
          | .calReload => 6
          | .overflow => 7
          | .unwrittenOperand => 8
          | .illegalAccess => 9)
        + 2 ^ 20 * (match s.build.variant with | .a => 0 | .b => 1) ∧
    s.xferWord.toNat = s.curAddr.toNat + 2 ^ 8 * (match s.curDir with | .write => 0 | .read => 1)

/-- R22, R31, R39: an idle block's registers are read at their offsets, and reading one changes nothing else. A register that
is ⊥ reads as any value: the free value of log 8, within the register's bits. -/
def Obligations.HostReadsRegisterMap : Prop :=
  ∀ (s : State) (more : List Input) (off : Word),
    s.busy = false → s.mseq = [] → s.inputs = .access (.read off 4) :: more →
    (∀ v : Word,
      ((off = 0x004 ∧ v = s.statusWord) ∨
       (off = 0x008 ∧ ∃ b, s.rxdata = some b ∧ v = b.setWidth 32) ∨
       (off = 0x00C ∧ ∃ h, s.rx16 = some h ∧ v = h.setWidth 32) ∨
       (off = 0x010 ∧ s.rawT = some v) ∨ (off = 0x014 ∧ s.rawP = some v) ∨ (off = 0x018 ∧ s.fine = some v) ∨
       (off = 0x01C ∧ s.tOut = some v) ∨ (off = 0x020 ∧ s.pOut = some v) ∨
       (off = 0x024 ∧ v = s.faultCmd) ∨ (off = 0x028 ∧ v = s.xferWord) ∨
       (∃ i b, i < 32 ∧ off = BitVec.ofNat 32 (0x100 + 4 * i) ∧ s.rx i = some b ∧ v = b.setWidth 32) ∨
       (∃ k : Fin 12, off = BitVec.ofNat 32 (0x200 + 4 * k.val) ∧ v = s.cal[k].setWidth 32)) →
      step s = .next { s with inputs := more, hostData := some v }) ∧
    (∀ mask : Word,
      ((off = 0x008 ∧ s.rxdata = none ∧ mask = 0xFF) ∨ (off = 0x00C ∧ s.rx16 = none ∧ mask = 0xFFFF) ∨
       (mask = 0xFFFFFFFF ∧
        ((off = 0x010 ∧ s.rawT = none) ∨ (off = 0x014 ∧ s.rawP = none) ∨ (off = 0x018 ∧ s.fine = none) ∨
         (off = 0x01C ∧ s.tOut = none) ∨ (off = 0x020 ∧ s.pOut = none))) ∨
       (mask = 0xFF ∧ ∃ i, i < 32 ∧ off = BitVec.ofNat 32 (0x100 + 4 * i) ∧ s.rx i = none)) →
      step s = .next
        { s with inputs := more, hostData := some (Config.anyWord s.draws &&& mask), draws := s.draws + 1 })

/-- R71: while BUSY = 1 a read of a result register returns any value (the free value of log 8), and one of STATUS, FAULT_CMD,
XFER or CAL what the register holds. The read changes nothing else; if no request is outstanding the engine goes on after it
(log 2). -/
def Obligations.HostReadsWhileBusy : Prop :=
  ∀ (s u : State) (more : List Input) (off : Word),
    s.busy = true → s.inputs = .access (.read off 4) :: more →
    ((∃ v : Word, u = { s with inputs := more, hostData := some v } ∧
       ((off = 0x004 ∧ v = s.statusWord) ∨ (off = 0x024 ∧ v = s.faultCmd) ∨ (off = 0x028 ∧ v = s.xferWord) ∨
        ∃ k : Fin 12, off = BitVec.ofNat 32 (0x200 + 4 * k.val) ∧ v = s.cal[k].setWidth 32)) ∨
     (∃ mask : Word,
       u = { s with inputs := more, hostData := some (Config.anyWord s.draws &&& mask), draws := s.draws + 1 } ∧
       ((off ∈ [0x010, 0x014, 0x018, 0x01C, 0x020] ∧ mask = 0xFFFFFFFF) ∨ (off = 0x00C ∧ mask = 0xFFFF) ∨
        ((off = 0x008 ∨ ∃ i, i < 32 ∧ off = BitVec.ofNat 32 (0x100 + 4 * i)) ∧ mask = 0xFF)))) →
    (s.pend ≠ none → step s = .next u) ∧ (s.pend = none → step s = .next (run s.mseq u))

/-- R24: an accepted command raises BUSY and lowers DONE; shown where the engine yields before its first move (log 2). -/
def Obligations.AcceptedCommandIsBusy : Prop :=
  ∀ (i : Instr) (s : State) (more : List Input),
    s.faulted = false → s.busy = false → s.inputs = .hold 0 :: more → i.wf = true → i.builtIn s.build.variant = true →
    ∃ seq, seq ≠ [] ∧ exec i s = .next { s with busy := true, done := false, cmd := some (encode i), mseq := seq }

/-! ### Transport -/

/-- R101: START. -/
def Obligations.StartRule : Prop :=
  ∀ s : State, s.Ready →
    (∀ ack d more, s.tstate = .idle → s.inputs = .complete ack d :: more →
      exec .start s = .next { s.ended with
        inputs := more, pend := none, tstate := .started, trace := s.trace ++ [.start] }) ∧
    (∀ ack d more, s.tstate = .tx ∨ s.tstate = .rxend → s.inputs = .complete ack d :: more →
      exec .start s = .next { s.ended with
        inputs := more, pend := none, tstate := .started, trace := s.trace ++ [.repStart] }) ∧
    (s.tstate = .started ∨ s.tstate = .rx →
      exec .start s = .next (faultState .protocolViolation (encode .start) s))

/-- R102: WRB; the acknowledge bit goes to the trace alone. -/
def Obligations.WrbRule : Prop :=
  ∀ (s : State) (b : Byte), s.Ready →
    (∀ ack d more, s.tstate = .started → s.inputs = .complete ack d :: more →
      exec (.wrb b) s = .next { s.ended with
        inputs := more, pend := none, trace := s.trace ++ [.write b ack],
        curAddr := BitVec.ofNat 7 (b.toNat / 2), curDir := if b.toNat % 2 = 0 then .write else .read,
        tstate := if b.toNat % 2 = 0 then .tx else .rx }) ∧
    (∀ ack d more, s.tstate = .tx → s.inputs = .complete ack d :: more →
      exec (.wrb b) s = .next { s.ended with
        inputs := more, pend := none, trace := s.trace ++ [.write b ack] }) ∧
    (s.tstate = .idle ∨ s.tstate = .rx ∨ s.tstate = .rxend →
      exec (.wrb b) s = .next (faultState .protocolViolation (encode (.wrb b)) s))

/-- R103: RDA. -/
def Obligations.RdaRule : Prop :=
  ∀ (s : State) (i : Byte), s.Ready →
    (∀ ack d more, i.toNat < 32 → s.tstate = .rx → s.inputs = .complete ack d :: more →
      ∃ t, exec (.rda i) s = .next t ∧
        t = { s.ended with
          inputs := more, pend := none, trace := s.trace ++ [.read d true], rxdata := some d, rxbuf := t.rxbuf } ∧
        ∀ j, t.rx j = if j = i.toNat then some d else s.rx j) ∧
    (i.toNat < 32 → s.tstate ≠ .rx → exec (.rda i) s = .next (faultState .protocolViolation (encode (.rda i)) s)) ∧
    (32 ≤ i.toNat → exec (.rda i) s = .next (faultState .illegalCommand (encode (.rda i)) s))

/-- R104: RDNK. -/
def Obligations.RdnkRule : Prop :=
  ∀ (s : State) (i : Byte), s.Ready →
    (∀ ack d more, i.toNat < 32 → s.tstate = .rx → s.inputs = .complete ack d :: more →
      ∃ t, exec (.rdnk i) s = .next t ∧
        t = { s.ended with
          inputs := more, pend := none, trace := s.trace ++ [.read d false], rxdata := some d, tstate := .rxend,
          rxbuf := t.rxbuf } ∧
        ∀ j, t.rx j = if j = i.toNat then some d else s.rx j) ∧
    (i.toNat < 32 → s.tstate ≠ .rx → exec (.rdnk i) s = .next (faultState .protocolViolation (encode (.rdnk i)) s)) ∧
    (32 ≤ i.toNat → exec (.rdnk i) s = .next (faultState .illegalCommand (encode (.rdnk i)) s))

/-- R105: STOP. -/
def Obligations.StopRule : Prop :=
  ∀ s : State, s.Ready →
    (∀ ack d more, s.tstate = .tx ∨ s.tstate = .rxend → s.inputs = .complete ack d :: more →
      exec .stop s = .next { s.ended with
        inputs := more, pend := none, tstate := .idle, trace := s.trace ++ [.stop] }) ∧
    (s.tstate = .idle ∨ s.tstate = .started ∨ s.tstate = .rx →
      exec .stop s = .next (faultState .protocolViolation (encode .stop) s))

/-- R106, R100: a request without a completion leaves the block busy with the request outstanding, and while none comes a step
changes nothing: a hang, not a fault. A completion that comes at a later step records the event, takes the effect of the step in
hand and lets the engine go on with the rest; and a command whose answers come late leaves what it leaves when they come at
once. -/
def Obligations.WithheldCompletionHangs : Prop :=
  (∀ s : State, s.Ready → s.tstate = .idle → s.inputs = [] →
    exec .start s = .next
      { s with busy := true, done := false, cmd := some (encode .start), mseq := [.start], pend := some .start }) ∧
  (∀ s : State, s.pend ≠ none → s.inputs = [] → step s = .next s) ∧
  (∀ (s : State) (m : MStep) (rest : List MStep) (sym : Sym) (ack : Bool) (d : Byte) (more : List Input),
    s.Inv → s.pend = some sym → s.mseq = m :: rest → s.inputs = .complete ack d :: more →
    ∃ b, step s = .next (run rest (afterAnswer m sym ack d rest more b s)) ∧
      ∀ j, b[j]?.join = match m with
        | .rda k | .rdnk k => if j = k then some d else s.rx j
        | _ => s.rx j) ∧
  (∀ (i : Instr) (s t : State) (cs : List (Bool × Byte)) (ack : Bool) (d : Byte) (more : List Input),
    s.Ready → s.pend = none → s.inputs = answers cs → exec i s = .next t → t.pend ≠ none →
    step { t with inputs := .complete ack d :: more } = exec i { s with inputs := answers cs ++ .complete ack d :: more })

/-! ### Register access -/

/-- R131: RD1. -/
def Obligations.Rd1Rule : Prop :=
  ∀ (s : State) (a : Addr7) (r o : Byte) (cs : Nat → Bool × Byte) (more : List Input), s.Ready →
    (o.toNat < 32 → s.tstate = .idle → s.inputs = answers ((List.range 7).map cs) ++ more →
      ∃ t, exec (.rd1 a r o) s = .next t ∧
        t = { s.ended with
          inputs := more, pend := none, curAddr := a, curDir := .read, rxdata := some (cs 5).2, rxbuf := t.rxbuf,
          trace := s.trace ++ [.start, .write (abyte a 0) (cs 1).1, .write r (cs 2).1, .repStart,
            .write (abyte a 1) (cs 4).1, .read (cs 5).2 false, .stop] } ∧
        ∀ j, t.rx j = if j = o.toNat then some (cs 5).2 else s.rx j) ∧
    (o.toNat < 32 → s.tstate ≠ .idle →
      exec (.rd1 a r o) s = .next (faultState .protocolViolation (encode (.rd1 a r o)) s)) ∧
    (32 ≤ o.toNat → exec (.rd1 a r o) s = .next (faultState .illegalCommand (encode (.rd1 a r o)) s))

/-- R132, R64: RD2. -/
def Obligations.Rd2Rule : Prop :=
  ∀ (s : State) (a : Addr7) (r o : Byte) (cs : Nat → Bool × Byte) (more : List Input), s.Ready →
    (o.toNat ≤ 30 → s.tstate = .idle → engineTurn more = some more → s.inputs = answers ((List.range 8).map cs) ++ more →
      ∃ t, exec (.rd2 a r o) s = .next t ∧
        t = { s.ended with
          inputs := more, pend := none, curAddr := a, curDir := .read, rxdata := some (cs 6).2, rxbuf := t.rxbuf,
          rx16 := some (BitVec.ofNat 16 ((cs 5).2.toNat * 256 + (cs 6).2.toNat)),
          trace := s.trace ++ [.start, .write (abyte a 0) (cs 1).1, .write r (cs 2).1, .repStart,
            .write (abyte a 1) (cs 4).1, .read (cs 5).2 true, .read (cs 6).2 false, .stop] } ∧
        ∀ j, t.rx j = if j = o.toNat then some (cs 5).2 else if j = o.toNat + 1 then some (cs 6).2 else s.rx j) ∧
    (o.toNat ≤ 30 → s.tstate ≠ .idle →
      exec (.rd2 a r o) s = .next (faultState .protocolViolation (encode (.rd2 a r o)) s)) ∧
    (30 < o.toNat → exec (.rd2 a r o) s = .next (faultState .illegalCommand (encode (.rd2 a r o)) s))

/-- R133: RDBURST, for every count from 1 to 32. -/
def Obligations.RdburstRule : Prop :=
  ∀ (s : State) (a : Addr7) (r n : Byte) (cs : Nat → Bool × Byte) (more : List Input), s.Ready →
    (1 ≤ n.toNat → n.toNat ≤ 32 → s.tstate = .idle →
      s.inputs = answers ((List.range (n.toNat + 6)).map cs) ++ more →
      ∃ t, exec (.rdburst a r n) s = .next t ∧
        t = { s.ended with
          inputs := more, pend := none, curAddr := a, curDir := .read, rxdata := some (cs (n.toNat + 4)).2,
          rxbuf := t.rxbuf,
          trace := s.trace ++ eventsOf (symsRead a r (n.toNat - 1)) ((List.range (n.toNat + 6)).map cs) } ∧
        ∀ j, t.rx j = if j < n.toNat then some (cs (5 + j)).2 else s.rx j) ∧
    (1 ≤ n.toNat → n.toNat ≤ 32 → s.tstate ≠ .idle →
      exec (.rdburst a r n) s = .next (faultState .protocolViolation (encode (.rdburst a r n)) s)) ∧
    (n.toNat = 0 ∨ 32 < n.toNat →
      exec (.rdburst a r n) s = .next (faultState .illegalCommand (encode (.rdburst a r n)) s))

/-- R134: WR1. -/
def Obligations.Wr1Rule : Prop :=
  ∀ (s : State) (a : Addr7) (r v : Byte) (cs : Nat → Bool × Byte) (more : List Input), s.Ready →
    (s.tstate = .idle → s.inputs = answers ((List.range 5).map cs) ++ more →
      exec (.wr1 a r v) s = .next { s.ended with
        inputs := more, pend := none, curAddr := a, curDir := .write,
        trace := s.trace ++ [.start, .write (abyte a 0) (cs 1).1, .write r (cs 2).1, .write v (cs 3).1, .stop] }) ∧
    (s.tstate ≠ .idle → exec (.wr1 a r v) s = .next (faultState .protocolViolation (encode (.wr1 a r v)) s))

/-- R140: SETPTR. -/
def Obligations.SetptrRule : Prop :=
  ∀ (s : State) (a : Addr7) (r : Byte) (cs : Nat → Bool × Byte) (more : List Input), s.Ready →
    (s.tstate = .idle → s.inputs = answers ((List.range 4).map cs) ++ more →
      exec (.setptr a r) s = .next { s.ended with
        inputs := more, pend := none, curAddr := a, curDir := .write,
        trace := s.trace ++ [.start, .write (abyte a 0) (cs 1).1, .write r (cs 2).1, .stop] }) ∧
    (s.tstate ≠ .idle → exec (.setptr a r) s = .next (faultState .protocolViolation (encode (.setptr a r)) s))

/-- R142: RDCUR, for every count from 1 to 32. -/
def Obligations.RdcurRule : Prop :=
  ∀ (s : State) (a : Addr7) (n : Byte) (cs : Nat → Bool × Byte) (more : List Input), s.Ready →
    (1 ≤ n.toNat → n.toNat ≤ 32 → s.tstate = .idle →
      s.inputs = answers ((List.range (n.toNat + 3)).map cs) ++ more →
      ∃ t, exec (.rdcur a n) s = .next t ∧
        t = { s.ended with
          inputs := more, pend := none, curAddr := a, curDir := .read, rxdata := some (cs (n.toNat + 1)).2,
          rxbuf := t.rxbuf,
          trace := s.trace ++ eventsOf (symsCurrent a (n.toNat - 1)) ((List.range (n.toNat + 3)).map cs) } ∧
        ∀ j, t.rx j = if j < n.toNat then some (cs (2 + j)).2 else s.rx j) ∧
    (1 ≤ n.toNat → n.toNat ≤ 32 → s.tstate ≠ .idle →
      exec (.rdcur a n) s = .next (faultState .protocolViolation (encode (.rdcur a n)) s)) ∧
    (n.toNat = 0 ∨ 32 < n.toNat →
      exec (.rdcur a n) s = .next (faultState .illegalCommand (encode (.rdcur a n)) s))

/-- R136: from TSTATE = IDLE, a composite that is answered leaves the state its primitives leave one by one, apart from
RD2's RX16. -/
def Obligations.CompositeEqualsItsPrimitives : Prop :=
  ∀ (i : Instr) (s : State) (cs : List (Bool × Byte)) (more : List Input),
    primitives i ≠ [] → i.wf = true → s.Ready → s.tstate = .idle → cs.length = (primitives i).length →
    s.inputs = answers cs ++ more → engineTurn more = some more →
    ∃ t u, exec i s = .next t ∧ execAll (primitives i) s = .next u ∧
      t = { u with rx16 := t.rx16 } ∧ t.busy = false ∧
      ((∀ a r o, i ≠ .rd2 a r o) → t.rx16 = u.rx16)

/-- R135: an answered composite issues one S, one P, one Sr if it is RD1, RD2 or RDBURST and none else, and, if it reads n
bytes, n − 1 reads with ACK and then one with NACK. -/
def Obligations.CompositeTransactionCounts : Prop :=
  ∀ (i : Instr) (s : State) (cs : List (Bool × Byte)) (more : List Input),
    primitives i ≠ [] → i.wf = true → s.Ready → s.tstate = .idle → cs.length = (primitives i).length →
    s.inputs = answers cs ++ more →
    ∃ t ev, exec i s = .next t ∧ t.trace = s.trace ++ ev ∧
      ev.count .start = 1 ∧ ev.count .stop = 1 ∧
      ev.count .repStart = (match i with | .rd1 .. | .rd2 .. | .rdburst .. => 1 | _ => 0) ∧
      (ev.filter fun e => match e with | .read .. => true | _ => false).map
          (fun e => match e with | .read _ m => m | _ => false)
        = (match i with
          | .rd1 .. => [false]
          | .rd2 .. => [true, false]
          | .rdburst _ _ n | .rdcur _ n => List.replicate (n.toNat - 1) true ++ [false]
          | _ => [])

/-! ### Variant A -/

/-- R161, R162: LDCAL_A. -/
def Obligations.LdcalARule : Prop :=
  ∀ s : State, s.Ready → s.build.variant = .a →
    (∀ b : Nat → Byte, s.drvState = .uninit → (∀ j, j < 22 → s.rx j = some (b j)) →
      ∃ t, exec .ldcalA s = .next t ∧
        t = { s.ended with
          cal := t.cal, calOk := t.calOk, drvState := .calLoaded, fineValid := false } ∧
        (∀ k : Fin 12, t.cal[k] =
          if k.val < 11 then BitVec.ofNat 16 ((b (2 * k.val)).toNat * 256 + (b (2 * k.val + 1)).toNat) else s.cal[k]) ∧
        (t.calOk = true ↔ t.cal[0] ≠ 0x0000 ∧ t.cal[0] ≠ 0xFFFF)) ∧
    (s.drvState ≠ .uninit → exec .ldcalA s = .next (faultState .calReload (encode .ldcalA) s)) ∧
    (s.drvState = .uninit → (∃ j, j < 22 ∧ s.rx j = none) →
      exec .ldcalA s = .next (faultState .unwrittenOperand (encode .ldcalA) s))

/-- R163, R164: PACK_AT and PACK_AP; the XLSB byte must be written and is shifted out. -/
def Obligations.PackRules : Prop :=
  ∀ s : State, s.Ready → s.build.variant = .a →
    (∀ b0 b1, s.rx 0 = some b0 → s.rx 1 = some b1 →
      exec .packAt s = .next { s.ended with
        rawT := some (BitVec.ofNat 32 (b0.toNat * 256 + b1.toNat)) }) ∧
    (s.rx 0 = none ∨ s.rx 1 = none →
      exec .packAt s = .next (faultState .unwrittenOperand (encode .packAt) s)) ∧
    (∀ b0 b1 b2, s.rx 0 = some b0 → s.rx 1 = some b1 → s.rx 2 = some b2 →
      exec .packAp s = .next { s.ended with
        rawP := some (BitVec.ofNat 32 (b0.toNat * 256 + b1.toNat)) }) ∧
    (s.rx 0 = none ∨ s.rx 1 = none ∨ s.rx 2 = none →
      exec .packAp s = .next (faultState .unwrittenOperand (encode .packAp) s))

/-- R166: COMP_AT in either overflow mode: the CAL_OK = 0 path, the ⊥ check, and the outcome of the formula, whose arithmetic
`TemperatureAWrapArithmetic` and `OverflowModesAgree` state. -/
def Obligations.CompAtRule : Prop :=
  ∀ s : State, s.Ready → s.build.variant = .a →
    (s.calOk = false → exec .compAt s = .next { s.ended with tOut := some 0 }) ∧
    (s.calOk = true → s.rawT = none →
      exec .compAt s = .next (faultState .unwrittenOperand (encode .compAt) s)) ∧
    (∀ ut b5 t, s.calOk = true → s.rawT = some ut →
      calcAT s.build.overflowMode ut.toInt s.cal[4].toNat s.cal[5].toNat s.cal[9].toInt s.cal[10].toInt = .ok (b5, t) →
      exec .compAt s = .next { s.ended with
        fine := some (BitVec.ofInt 32 b5), tOut := some (BitVec.ofInt 32 t), fineValid := true }) ∧
    (∀ ut c, s.calOk = true → s.rawT = some ut →
      calcAT s.build.overflowMode ut.toInt s.cal[4].toNat s.cal[5].toNat s.cal[9].toInt s.cal[10].toInt = .error c →
      exec .compAt s = .next (faultState c (encode .compAt) s))

/-- R167, R280: COMP_AP in either overflow mode; `PressureAWrapArithmetic` and `OverflowModesAgree` state the formula. -/
def Obligations.CompApRule : Prop :=
  ∀ s : State, s.Ready → s.build.variant = .a →
    (s.calOk = false →
      exec .compAp s = .next { s.ended with pOut := some 0, fineValid := false }) ∧
    (s.calOk = true → s.fineValid = false →
      exec .compAp s = .next (faultState .staleFine (encode .compAp) s)) ∧
    (s.calOk = true → s.fineValid = true → s.rawP = none →
      exec .compAp s = .next (faultState .unwrittenOperand (encode .compAp) s)) ∧
    (∀ up b5 p, s.calOk = true → s.fineValid = true → s.rawP = some up → s.fine = some b5 →
      calcAP s.build.overflowMode up.toInt b5.toInt s.cal[0].toInt s.cal[1].toInt s.cal[2].toInt s.cal[3].toNat
        s.cal[6].toInt s.cal[7].toInt = .ok p →
      exec .compAp s = .next { s.ended with pOut := some (BitVec.ofInt 32 p), fineValid := false }) ∧
    (∀ up b5 c, s.calOk = true → s.fineValid = true → s.rawP = some up → s.fine = some b5 →
      calcAP s.build.overflowMode up.toInt b5.toInt s.cal[0].toInt s.cal[1].toInt s.cal[2].toInt s.cal[3].toNat
        s.cal[6].toInt s.cal[7].toInt = .error c →
      exec .compAp s = .next (faultState c (encode .compAp) s))

/-- R166 under `wrap` is 32-bit two's-complement arithmetic, with DivideByZero where X1 + MD is 0. -/
def Obligations.TemperatureAWrapArithmetic : Prop :=
  ∀ (ut : Word) (ac5 ac6 mc md : Half),
    calcAT .wrap ut.toInt ac5.toNat ac6.toNat mc.toInt md.toInt =
      match refAT ut ac5 ac6 mc md with
      | none => .error .divideByZero
      | some (b5, t) => .ok (b5.toInt, t.toInt)

/-- R167 under `wrap` is 32-bit two's-complement arithmetic, with B4 and B7 unsigned and DivideByZero where B4 is 0. -/
def Obligations.PressureAWrapArithmetic : Prop :=
  ∀ (up b5 : Word) (ac1 ac2 ac3 ac4 b1 b2 : Half),
    calcAP .wrap up.toInt b5.toInt ac1.toInt ac2.toInt ac3.toInt ac4.toNat b1.toInt b2.toInt =
      match refAP up b5 ac1 ac2 ac3 ac4 b1 b2 with
      | none => .error .divideByZero
      | some p => .ok p.toInt

/-- R172: the source's two reference results, under either overflow mode. -/
def Obligations.ReferenceResultsA : Prop :=
  ∀ m : OverflowMode,
    calcAT m 27898 32757 23153 (-8711) 2868 = .ok (2400, 150) ∧
    calcAP m 23843 2400 408 (-72) (-14383) 32741 6190 4 = .ok 69964

/-- R170: INIT_A, answered by the environment, for any count of identity reads. -/
def Obligations.InitARule : Prop :=
  ∀ (s : State) (a : Addr7) (pre : List (Bool × Byte)) (cs : Nat → Bool × Byte) (more : List Input),
    s.Ready → s.build.variant = .a →
    (s.tstate = .idle → engineTurn more = some more → s.drvState = .uninit → pre.length = 1 + 7 * s.build.nIdReads →
      s.inputs = answers (pre ++ (List.range 28).map cs) ++ more →
      ∃ t, exec (.initA a) s = .next t ∧
        t = { s.ended with
          inputs := more, pend := none, drvState := .ready, fineValid := false, curAddr := a, curDir := .read,
          rxdata := some (cs 26).2, rxbuf := t.rxbuf, cal := t.cal, calOk := t.calOk,
          trace := s.trace ++ eventsOf (symsInitA s.build a) (pre ++ (List.range 28).map cs) } ∧
        (∀ j, t.rx j = if j < 22 then some (cs (5 + j)).2 else s.rx j) ∧
        (∀ k : Fin 12, t.cal[k] =
          if k.val < 11 then
            BitVec.ofNat 16 ((cs (5 + 2 * k.val)).2.toNat * 256 + (cs (6 + 2 * k.val)).2.toNat)
          else s.cal[k]) ∧
        (t.calOk = true ↔ t.cal[0] ≠ 0x0000 ∧ t.cal[0] ≠ 0xFFFF)) ∧
    (s.tstate ≠ .idle → exec (.initA a) s = .next (faultState .protocolViolation (encode (.initA a)) s)) ∧
    (s.tstate = .idle → s.drvState ≠ .uninit →
      exec (.initA a) s = .next (faultState .calReload (encode (.initA a)) s))

/-- R171: SAMPLE_A with a valid calibration, answered by the environment, where both formulas give a result; outside IDLE it is a
ProtocolViolation, whatever CAL_OK is. -/
def Obligations.SampleARule : Prop :=
  ∀ (s : State) (a : Addr7) (cs : Nat → Bool × Byte) (more : List Input) (b5 tr p : Int),
    s.Ready → s.build.variant = .a →
    (s.calOk = true → s.tstate = .idle → engineTurn more = some more → s.inputs = answers ((List.range 35).map cs) ++ more →
      calcAT s.build.overflowMode ((cs 11).2.toNat * 256 + (cs 12).2.toNat : Nat)
        s.cal[4].toNat s.cal[5].toNat s.cal[9].toInt s.cal[10].toInt = .ok (b5, tr) →
      calcAP s.build.overflowMode ((cs 25).2.toNat * 256 + (cs 26).2.toNat : Nat) (BitVec.ofInt 32 b5).toInt
        s.cal[0].toInt s.cal[1].toInt s.cal[2].toInt s.cal[3].toNat s.cal[6].toInt s.cal[7].toInt = .ok p →
      ∃ t, exec (.sampleA a) s = .next t ∧
        t = { s.ended with
          inputs := more, pend := none, curAddr := a, curDir := .read, fineValid := false,
          rawT := some (BitVec.ofNat 32 ((cs 11).2.toNat * 256 + (cs 12).2.toNat)),
          rawP := some (BitVec.ofNat 32 ((cs 25).2.toNat * 256 + (cs 26).2.toNat)),
          rx16 := some (BitVec.ofNat 16 ((cs 25).2.toNat * 256 + (cs 26).2.toNat)),
          rxdata := some (cs 33).2, rxbuf := t.rxbuf,
          fine := some (BitVec.ofInt 32 b5), tOut := some (BitVec.ofInt 32 tr), pOut := some (BitVec.ofInt 32 p),
          trace := s.trace ++ eventsOf (symsSampleA a) ((List.range 35).map cs) } ∧
        ∀ j, t.rx j = if j = 0 then some (cs 25).2 else if j = 1 then some (cs 26).2
          else if j = 2 then some (cs 33).2 else s.rx j) ∧
    (s.tstate ≠ .idle → exec (.sampleA a) s = .next (faultState .protocolViolation (encode (.sampleA a)) s))

/-- R244, R240: a fault inside SAMPLE_A keeps what the earlier steps did, and FAULT_CMD is the SAMPLE word. A fault in COMP_AP:
the bus traffic, RXBUF, RAW_T, RAW_P, FINE and T_OUT stay and P_OUT is not written. A fault in COMP_AT: the temperature's
traffic, RXBUF and RAW_T stay, and no output is written. -/
def Obligations.SampleAFaultIsPrecise : Prop :=
  ∀ (s : State) (a : Addr7) (cs : Nat → Bool × Byte) (more : List Input) (c : FaultCode),
    s.Ready → s.build.variant = .a → s.calOk = true → s.tstate = .idle → engineTurn more = some more →
    (∀ b5 tr : Int, s.inputs = answers ((List.range 35).map cs) ++ more →
      calcAT s.build.overflowMode ((cs 11).2.toNat * 256 + (cs 12).2.toNat : Nat)
        s.cal[4].toNat s.cal[5].toNat s.cal[9].toInt s.cal[10].toInt = .ok (b5, tr) →
      calcAP s.build.overflowMode ((cs 25).2.toNat * 256 + (cs 26).2.toNat : Nat) (BitVec.ofInt 32 b5).toInt
        s.cal[0].toInt s.cal[1].toInt s.cal[2].toInt s.cal[3].toNat s.cal[6].toInt s.cal[7].toInt = .error c →
      ∃ t, exec (.sampleA a) s = .next t ∧
        t = { faultState c (encode (.sampleA a)) s with
          inputs := more, curAddr := a, curDir := .read, fineValid := true,
          rawT := some (BitVec.ofNat 32 ((cs 11).2.toNat * 256 + (cs 12).2.toNat)),
          rawP := some (BitVec.ofNat 32 ((cs 25).2.toNat * 256 + (cs 26).2.toNat)),
          rx16 := some (BitVec.ofNat 16 ((cs 25).2.toNat * 256 + (cs 26).2.toNat)),
          rxdata := some (cs 33).2, rxbuf := t.rxbuf,
          fine := some (BitVec.ofInt 32 b5), tOut := some (BitVec.ofInt 32 tr),
          trace := s.trace ++ eventsOf (symsSampleA a) ((List.range 35).map cs) } ∧
        ∀ j, t.rx j = if j = 0 then some (cs 25).2 else if j = 1 then some (cs 26).2
          else if j = 2 then some (cs 33).2 else s.rx j) ∧
    (s.inputs = answers ((List.range 14).map cs) ++ more →
      calcAT s.build.overflowMode ((cs 11).2.toNat * 256 + (cs 12).2.toNat : Nat)
        s.cal[4].toNat s.cal[5].toNat s.cal[9].toInt s.cal[10].toInt = .error c →
      ∃ t, exec (.sampleA a) s = .next t ∧
        t = { faultState c (encode (.sampleA a)) s with
          inputs := more, curAddr := a, curDir := .read,
          rawT := some (BitVec.ofNat 32 ((cs 11).2.toNat * 256 + (cs 12).2.toNat)),
          rx16 := some (BitVec.ofNat 16 ((cs 11).2.toNat * 256 + (cs 12).2.toNat)),
          rxdata := some (cs 12).2, rxbuf := t.rxbuf,
          trace := s.trace ++ eventsOf (symsSampleA a) ((List.range 14).map cs) } ∧
        ∀ j, t.rx j = if j = 0 then some (cs 11).2 else if j = 1 then some (cs 12).2 else s.rx j)

/-! ### Variant B -/

/-- R201, R202, R200: LDCAL_B in both orders of bytes and under both sentinel options. -/
def Obligations.LdcalBRule : Prop :=
  ∀ s : State, s.Ready → s.build.variant = .b →
    (∀ b : Nat → Byte, s.drvState = .uninit → (∀ j, j < 24 → s.rx j = some (b j)) →
      ∃ t, exec .ldcalB s = .next t ∧
        t = { s.ended with
          cal := t.cal, calOk := t.calOk, drvState := .calLoaded, fineValid := false } ∧
        (∀ k : Fin 12, t.cal[k] = match s.build.bCalOrder with
          | .big => BitVec.ofNat 16 ((b (2 * k.val)).toNat * 256 + (b (2 * k.val + 1)).toNat)
          | .little => BitVec.ofNat 16 ((b (2 * k.val + 1)).toNat * 256 + (b (2 * k.val)).toNat)) ∧
        (t.calOk = true ↔ s.build.sentinelB = .none ∨ (t.cal[0] ≠ 0x0000 ∧ t.cal[0] ≠ 0xFFFF))) ∧
    (s.drvState ≠ .uninit → exec .ldcalB s = .next (faultState .calReload (encode .ldcalB) s)) ∧
    (s.drvState = .uninit → (∃ j, j < 24 ∧ s.rx j = none) →
      exec .ldcalB s = .next (faultState .unwrittenOperand (encode .ldcalB) s))

/-- R203: UNPACK_B. -/
def Obligations.UnpackBRule : Prop :=
  ∀ s : State, s.Ready → s.build.variant = .b →
    (∀ b : Nat → Byte, (∀ j, j < 6 → s.rx j = some (b j)) →
      exec .unpackB s = .next { s.ended with
        rawP := some (BitVec.ofNat 32 ((b 0).toNat * 2 ^ 12 + (b 1).toNat * 2 ^ 4 + (b 2).toNat / 2 ^ 4)),
        rawT := some (BitVec.ofNat 32 ((b 3).toNat * 2 ^ 12 + (b 4).toNat * 2 ^ 4 + (b 5).toNat / 2 ^ 4)) }) ∧
    ((∃ j, j < 6 ∧ s.rx j = none) →
      exec .unpackB s = .next (faultState .unwrittenOperand (encode .unpackB) s))

/-- R206: COMP_BT in either overflow mode; `TemperatureBWrapArithmetic` and `OverflowModesAgree` state the formula. -/
def Obligations.CompBtRule : Prop :=
  ∀ s : State, s.Ready → s.build.variant = .b →
    (s.calOk = false → exec .compBt s = .next { s.ended with tOut := some 0 }) ∧
    (s.calOk = true → s.rawT = none →
      exec .compBt s = .next (faultState .unwrittenOperand (encode .compBt) s)) ∧
    (∀ adcT f t, s.calOk = true → s.rawT = some adcT →
      calcBT s.build.overflowMode adcT.toInt s.cal[0].toNat s.cal[1].toInt s.cal[2].toInt = .ok (f, t) →
      exec .compBt s = .next { s.ended with
        fine := some (BitVec.ofInt 32 f), tOut := some (BitVec.ofInt 32 t), fineValid := true }) ∧
    (∀ adcT c, s.calOk = true → s.rawT = some adcT →
      calcBT s.build.overflowMode adcT.toInt s.cal[0].toNat s.cal[1].toInt s.cal[2].toInt = .error c →
      exec .compBt s = .next (faultState c (encode .compBt) s))

/-- R207, R209, R280: COMP_BP in either overflow mode; `PressureBWrapArithmetic` and `OverflowModesAgree` state the formula. -/
def Obligations.CompBpRule : Prop :=
  ∀ s : State, s.Ready → s.build.variant = .b →
    (s.calOk = false →
      exec .compBp s = .next { s.ended with pOut := some 0, fineValid := false }) ∧
    (s.calOk = true → s.fineValid = false →
      exec .compBp s = .next (faultState .staleFine (encode .compBp) s)) ∧
    (s.calOk = true → s.fineValid = true → s.rawP = none →
      exec .compBp s = .next (faultState .unwrittenOperand (encode .compBp) s)) ∧
    (∀ adcP f p, s.calOk = true → s.fineValid = true → s.rawP = some adcP → s.fine = some f →
      calcBP s.build.overflowMode adcP.toNat f.toInt s.cal[3].toNat s.cal[4].toInt s.cal[5].toInt s.cal[6].toInt
        s.cal[7].toInt s.cal[8].toInt s.cal[9].toInt s.cal[10].toInt s.cal[11].toInt = .ok p →
      exec .compBp s = .next { s.ended with pOut := some (BitVec.ofInt 32 p), fineValid := false }) ∧
    (∀ adcP f c, s.calOk = true → s.fineValid = true → s.rawP = some adcP → s.fine = some f →
      calcBP s.build.overflowMode adcP.toNat f.toInt s.cal[3].toNat s.cal[4].toInt s.cal[5].toInt s.cal[6].toInt
        s.cal[7].toInt s.cal[8].toInt s.cal[9].toInt s.cal[10].toInt s.cal[11].toInt = .error c →
      exec .compBp s = .next (faultState c (encode .compBp) s))

/-- R206 under `wrap` is 32-bit two's-complement arithmetic. -/
def Obligations.TemperatureBWrapArithmetic : Prop :=
  ∀ (adcT : Word) (t1 t2 t3 : Half),
    calcBT .wrap adcT.toInt t1.toNat t2.toInt t3.toInt =
      .ok ((refBT adcT t1 t2 t3).1.toInt, (refBT adcT t1 t2 t3).2.toInt)

/-- R207 under `wrap` is 64-bit two's-complement arithmetic, and P_OUT is 0 where the denominator is 0 (R209). -/
def Obligations.PressureBWrapArithmetic : Prop :=
  ∀ (adcP f : Word) (p1 p2 p3 p4 p5 p6 p7 p8 p9 : Half),
    ∃ p, calcBP .wrap adcP.toNat f.toInt p1.toNat p2.toInt p3.toInt p4.toInt p5.toInt p6.toInt p7.toInt p8.toInt p9.toInt
        = .ok p ∧
      BitVec.ofInt 32 p = if refBPden f p1 p2 p3 = 0 then 0 else refBP adcP f p1 p2 p3 p4 p5 p6 p7 p8 p9

/-- R11: under `fault` a formula raises Overflow exactly when the exact result of one of its signed operations is out of range
(the lists of exact results stand in Safety.lean), and else ends as it does under `wrap`; under `wrap` none overflows, and the
only fault is variant A's DivideByZero. So too one operation, whose result under `wrap` is the one in range that differs by a
multiple of the modulus. That a quotient is reduced like the other results is log 12. -/
def Obligations.OverflowModesAgree : Prop :=
  (∀ v : Int,
    (fits32 v → ∀ m, reduceS m 32 v = .ok v) ∧ (fits64 v → ∀ m, reduceS m 64 v = .ok v) ∧
    (¬ fits32 v → reduceS .fault 32 v = .error .overflow ∧
      ∃ r, reduceS .wrap 32 v = .ok r ∧ fits32 r ∧ 4294967296 ∣ v - r) ∧
    (¬ fits64 v → reduceS .fault 64 v = .error .overflow ∧
      ∃ r, reduceS .wrap 64 v = .ok r ∧ fits64 r ∧ 18446744073709551616 ∣ v - r)) ∧
  (∀ ut ac5 ac6 mc md : Int,
    ((∃ v ∈ exactAT ut ac5 ac6 mc md, ¬ fits32 v) → calcAT .fault ut ac5 ac6 mc md = .error .overflow) ∧
    ((∀ v ∈ exactAT ut ac5 ac6 mc md, fits32 v) → calcAT .fault ut ac5 ac6 mc md = calcAT .wrap ut ac5 ac6 mc md) ∧
    ∀ c, calcAT .wrap ut ac5 ac6 mc md = .error c → c = .divideByZero) ∧
  (∀ up b5 ac1 ac2 ac3 ac4 b1 b2 : Int,
    ((∃ v ∈ exactAP up b5 ac1 ac2 ac3 ac4 b1 b2, ¬ fits32 v) →
      calcAP .fault up b5 ac1 ac2 ac3 ac4 b1 b2 = .error .overflow) ∧
    ((∀ v ∈ exactAP up b5 ac1 ac2 ac3 ac4 b1 b2, fits32 v) →
      calcAP .fault up b5 ac1 ac2 ac3 ac4 b1 b2 = calcAP .wrap up b5 ac1 ac2 ac3 ac4 b1 b2) ∧
    ∀ c, calcAP .wrap up b5 ac1 ac2 ac3 ac4 b1 b2 = .error c → c = .divideByZero) ∧
  (∀ adcT t1 t2 t3 : Int,
    ((∃ v ∈ exactBT adcT t1 t2 t3, ¬ fits32 v) → calcBT .fault adcT t1 t2 t3 = .error .overflow) ∧
    ((∀ v ∈ exactBT adcT t1 t2 t3, fits32 v) → calcBT .fault adcT t1 t2 t3 = calcBT .wrap adcT t1 t2 t3) ∧
    ∃ r, calcBT .wrap adcT t1 t2 t3 = .ok r) ∧
  (∀ adcP f p1 p2 p3 p4 p5 p6 p7 p8 p9 : Int,
    ((∃ v ∈ exactBP adcP f p1 p2 p3 p4 p5 p6 p7 p8 p9, ¬ fits64 v) →
      calcBP .fault adcP f p1 p2 p3 p4 p5 p6 p7 p8 p9 = .error .overflow) ∧
    ((∀ v ∈ exactBP adcP f p1 p2 p3 p4 p5 p6 p7 p8 p9, fits64 v) →
      calcBP .fault adcP f p1 p2 p3 p4 p5 p6 p7 p8 p9 = calcBP .wrap adcP f p1 p2 p3 p4 p5 p6 p7 p8 p9) ∧
    ∃ r, calcBP .wrap adcP f p1 p2 p3 p4 p5 p6 p7 p8 p9 = .ok r)

/-- R210: INIT_B, answered by the environment, in both orders of configuration writes and of coefficient bytes. -/
def Obligations.InitBRule : Prop :=
  ∀ (s : State) (a : Addr7) (cs : Nat → Bool × Byte) (more : List Input),
    s.Ready → s.build.variant = .b →
    (s.tstate = .idle → engineTurn more = some more → s.drvState = .uninit →
      s.inputs = answers ((List.range 107).map cs) ++ more →
      ∃ t, exec (.initB a) s = .next t ∧
        t = { s.ended with
          inputs := more, pend := none, drvState := .ready, fineValid := false, curAddr := a, curDir := .read,
          rx16 := some (BitVec.ofNat 16 ((cs 104).2.toNat * 256 + (cs 105).2.toNat)),
          rxdata := some (cs 105).2, rxbuf := t.rxbuf, cal := t.cal, calOk := t.calOk,
          trace := s.trace ++ eventsOf (symsInitB s.build a) ((List.range 107).map cs) } ∧
        (∀ j, t.rx j = if j < 24 then some (cs (16 + 8 * (j / 2) + j % 2)).2 else s.rx j) ∧
        (∀ k : Fin 12, t.cal[k] = match s.build.bCalOrder with
          | .big => BitVec.ofNat 16 ((cs (16 + 8 * k.val)).2.toNat * 256 + (cs (17 + 8 * k.val)).2.toNat)
          | .little => BitVec.ofNat 16 ((cs (17 + 8 * k.val)).2.toNat * 256 + (cs (16 + 8 * k.val)).2.toNat)) ∧
        (t.calOk = true ↔ s.build.sentinelB = .none ∨ (t.cal[0] ≠ 0x0000 ∧ t.cal[0] ≠ 0xFFFF))) ∧
    (s.tstate ≠ .idle → exec (.initB a) s = .next (faultState .protocolViolation (encode (.initB a)) s)) ∧
    (s.tstate = .idle → s.drvState ≠ .uninit →
      exec (.initB a) s = .next (faultState .calReload (encode (.initB a)) s))

/-- R211: SAMPLE_B with a valid calibration, answered by the environment, where both formulas give a result; where one of them
faults, the earlier steps' effects stay and FAULT_CMD is the SAMPLE word (R240, R244); outside IDLE it is a ProtocolViolation,
whatever CAL_OK is. -/
def Obligations.SampleBRule : Prop :=
  ∀ (s : State) (a : Addr7) (cs : Nat → Bool × Byte) (more : List Input), s.Ready → s.build.variant = .b →
    (s.calOk = true → s.tstate = .idle → engineTurn more = some more →
      s.inputs = answers ((List.range 12).map cs) ++ more →
      (∀ f tr p : Int,
        calcBT s.build.overflowMode ((cs 8).2.toNat * 2 ^ 12 + (cs 9).2.toNat * 2 ^ 4 + (cs 10).2.toNat / 2 ^ 4 : Nat)
          s.cal[0].toNat s.cal[1].toInt s.cal[2].toInt = .ok (f, tr) →
        calcBP s.build.overflowMode ((cs 5).2.toNat * 2 ^ 12 + (cs 6).2.toNat * 2 ^ 4 + (cs 7).2.toNat / 2 ^ 4 : Nat)
          (BitVec.ofInt 32 f).toInt s.cal[3].toNat s.cal[4].toInt s.cal[5].toInt s.cal[6].toInt s.cal[7].toInt
          s.cal[8].toInt s.cal[9].toInt s.cal[10].toInt s.cal[11].toInt = .ok p →
        ∃ t, exec (.sampleB a) s = .next t ∧
          t = { s.ended with
            inputs := more, pend := none, curAddr := a, curDir := .read, fineValid := false,
            rawT := some (BitVec.ofNat 32 ((cs 8).2.toNat * 2 ^ 12 + (cs 9).2.toNat * 2 ^ 4 + (cs 10).2.toNat / 2 ^ 4)),
            rawP := some (BitVec.ofNat 32 ((cs 5).2.toNat * 2 ^ 12 + (cs 6).2.toNat * 2 ^ 4 + (cs 7).2.toNat / 2 ^ 4)),
            rxdata := some (cs 10).2, rxbuf := t.rxbuf,
            fine := some (BitVec.ofInt 32 f), tOut := some (BitVec.ofInt 32 tr), pOut := some (BitVec.ofInt 32 p),
            trace := s.trace ++ eventsOf (symsRead a 0xF7 5) ((List.range 12).map cs) } ∧
          ∀ j, t.rx j = if j < 6 then some (cs (5 + j)).2 else s.rx j) ∧
      (∀ (f tr : Int) (c : FaultCode),
        calcBT s.build.overflowMode ((cs 8).2.toNat * 2 ^ 12 + (cs 9).2.toNat * 2 ^ 4 + (cs 10).2.toNat / 2 ^ 4 : Nat)
          s.cal[0].toNat s.cal[1].toInt s.cal[2].toInt = .ok (f, tr) →
        calcBP s.build.overflowMode ((cs 5).2.toNat * 2 ^ 12 + (cs 6).2.toNat * 2 ^ 4 + (cs 7).2.toNat / 2 ^ 4 : Nat)
          (BitVec.ofInt 32 f).toInt s.cal[3].toNat s.cal[4].toInt s.cal[5].toInt s.cal[6].toInt s.cal[7].toInt
          s.cal[8].toInt s.cal[9].toInt s.cal[10].toInt s.cal[11].toInt = .error c →
        ∃ t, exec (.sampleB a) s = .next t ∧
          t = { faultState c (encode (.sampleB a)) s with
            inputs := more, curAddr := a, curDir := .read, fineValid := true,
            rawT := some (BitVec.ofNat 32 ((cs 8).2.toNat * 2 ^ 12 + (cs 9).2.toNat * 2 ^ 4 + (cs 10).2.toNat / 2 ^ 4)),
            rawP := some (BitVec.ofNat 32 ((cs 5).2.toNat * 2 ^ 12 + (cs 6).2.toNat * 2 ^ 4 + (cs 7).2.toNat / 2 ^ 4)),
            rxdata := some (cs 10).2, rxbuf := t.rxbuf,
            fine := some (BitVec.ofInt 32 f), tOut := some (BitVec.ofInt 32 tr),
            trace := s.trace ++ eventsOf (symsRead a 0xF7 5) ((List.range 12).map cs) } ∧
          ∀ j, t.rx j = if j < 6 then some (cs (5 + j)).2 else s.rx j) ∧
      (∀ c : FaultCode,
        calcBT s.build.overflowMode ((cs 8).2.toNat * 2 ^ 12 + (cs 9).2.toNat * 2 ^ 4 + (cs 10).2.toNat / 2 ^ 4 : Nat)
          s.cal[0].toNat s.cal[1].toInt s.cal[2].toInt = .error c →
        ∃ t, exec (.sampleB a) s = .next t ∧
          t = { faultState c (encode (.sampleB a)) s with
            inputs := more, curAddr := a, curDir := .read,
            rawT := some (BitVec.ofNat 32 ((cs 8).2.toNat * 2 ^ 12 + (cs 9).2.toNat * 2 ^ 4 + (cs 10).2.toNat / 2 ^ 4)),
            rawP := some (BitVec.ofNat 32 ((cs 5).2.toNat * 2 ^ 12 + (cs 6).2.toNat * 2 ^ 4 + (cs 7).2.toNat / 2 ^ 4)),
            rxdata := some (cs 10).2, rxbuf := t.rxbuf,
            trace := s.trace ++ eventsOf (symsRead a 0xF7 5) ((List.range 12).map cs) } ∧
          ∀ j, t.rx j = if j < 6 then some (cs (5 + j)).2 else s.rx j)) ∧
    (s.tstate ≠ .idle → exec (.sampleB a) s = .next (faultState .protocolViolation (encode (.sampleB a)) s))

/-! ### Both variants -/

/-- R34, R273: while CAL_OK = 0 a SAMPLE command gives zeros and no bus traffic in IDLE, and a ProtocolViolation elsewhere
(R171, R211). -/
def Obligations.SampleWithoutCalibration : Prop :=
  ∀ (s : State) (a : Addr7), s.Ready → s.calOk = false →
    (s.build.variant = .a →
      exec (.sampleA a) s = .next (if s.tstate = .idle then { s.ended with tOut := some 0, pOut := some 0 }
        else faultState .protocolViolation (encode (.sampleA a)) s)) ∧
    (s.build.variant = .b →
      exec (.sampleB a) s = .next (if s.tstate = .idle then { s.ended with tOut := some 0, pOut := some 0 }
        else faultState .protocolViolation (encode (.sampleB a)) s))

/-- R32, R33: once a calibration was loaded, no step but reset writes CAL or CAL_OK or moves DRV_STATE backward. -/
def Obligations.CalibrationIsImmutable : Prop :=
  ∀ s t : State, s.drvState ≠ .uninit → (∀ more, s.inputs ≠ .reset :: more) → step s = .next t →
    t.cal = s.cal ∧ t.calOk = s.calOk ∧ (t.drvState = s.drvState ∨ (s.drvState = .calLoaded ∧ t.drvState = .ready))

/-- R38: what the transport primitives and the register-access composites leave alone, whether they complete, wait or
fault. -/
def Obligations.BusCommandFrame : Prop :=
  ∀ (i : Instr) (s t : State), i.variant? = none → exec i s = .next t →
    t.build = s.build ∧ t.drvState = s.drvState ∧ t.calOk = s.calOk ∧ t.fineValid = s.fineValid ∧
    t.rawT = s.rawT ∧ t.rawP = s.rawP ∧ t.fine = s.fine ∧ t.tOut = s.tOut ∧ t.pOut = s.pOut ∧ t.cal = s.cal ∧
    t.hostData = s.hostData ∧ t.draws = s.draws ∧
    ((∀ a r o, i ≠ .rd2 a r o) → t.rx16 = s.rx16) ∧
    (∀ j, t.rx j ≠ s.rx j → match i with
      | .rda k | .rdnk k | .rd1 _ _ k => j = k.toNat
      | .rd2 _ _ k => j = k.toNat ∨ j = k.toNat + 1
      | .rdburst _ _ n | .rdcur _ n => j < n.toNat
      | _ => False) ∧
    (t.rxdata ≠ s.rxdata → match i with
      | .rda _ | .rdnk _ | .rd1 .. | .rd2 .. | .rdburst .. | .rdcur .. => True
      | _ => False) ∧
    ((match i with | .start | .rda _ | .rdnk _ | .stop => True | _ => False) →
      t.curAddr = s.curAddr ∧ t.curDir = s.curDir)

/-- R38: the calibration loads, packing and compensation commands issue no bus traffic and leave the transport's state alone;
each writes only its own results. -/
def Obligations.DatapathCommandFrame : Prop :=
  ∀ (i : Instr) (s t : State),
    i ∈ [Instr.ldcalA, .packAt, .packAp, .compAt, .compAp, .ldcalB, .unpackB, .compBt, .compBp] → exec i s = .next t →
    t.build = s.build ∧ t.tstate = s.tstate ∧ t.trace = s.trace ∧ t.rxbuf = s.rxbuf ∧ t.rxdata = s.rxdata ∧
    t.rx16 = s.rx16 ∧ t.curAddr = s.curAddr ∧ t.curDir = s.curDir ∧ t.hostData = s.hostData ∧ t.draws = s.draws ∧
    (i ∉ [Instr.ldcalA, .ldcalB] → t.cal = s.cal ∧ t.calOk = s.calOk ∧ t.drvState = s.drvState) ∧
    (i ∉ [Instr.packAt, .unpackB] → t.rawT = s.rawT) ∧ (i ∉ [Instr.packAp, .unpackB] → t.rawP = s.rawP) ∧
    (i ∉ [Instr.compAt, .compBt] → t.fine = s.fine ∧ t.tOut = s.tOut) ∧
    (i ∉ [Instr.compAp, .compBp] → t.pOut = s.pOut) ∧
    (i ∈ [Instr.packAt, .packAp, .unpackB] → t.fineValid = s.fineValid)

/-- R38: what INIT and SAMPLE leave alone, whether they complete, wait or fault. -/
def Obligations.DriverCommandFrame : Prop :=
  ∀ (a : Addr7) (s t : State),
    ((exec (.initA a) s = .next t ∨ exec (.initB a) s = .next t) →
      t.build = s.build ∧ t.rawT = s.rawT ∧ t.rawP = s.rawP ∧ t.fine = s.fine ∧ t.tOut = s.tOut ∧ t.pOut = s.pOut ∧
      t.hostData = s.hostData ∧ t.draws = s.draws) ∧
    ((exec (.sampleA a) s = .next t ∨ exec (.sampleB a) s = .next t) →
      t.build = s.build ∧ t.cal = s.cal ∧ t.calOk = s.calOk ∧ t.drvState = s.drvState ∧
      t.hostData = s.hostData ∧ t.draws = s.draws) ∧
    ((exec (.initA a) s = .next t ∨ exec (.sampleB a) s = .next t) → t.rx16 = s.rx16) ∧
    (exec (.initA a) s = .next t → ∀ j, 22 ≤ j → t.rx j = s.rx j) ∧
    (exec (.initB a) s = .next t → ∀ j, 24 ≤ j → t.rx j = s.rx j) ∧
    (exec (.sampleA a) s = .next t → ∀ j, 3 ≤ j → t.rx j = s.rx j) ∧
    (exec (.sampleB a) s = .next t → ∀ j, 6 ≤ j → t.rx j = s.rx j)

/-- R108: the slaves' acknowledge bits are recorded in the trace and read by no rule: two states that differ in nothing else
stay so. -/
def Obligations.AcknowledgeBitsChangeNothing : Prop :=
  ∀ s₁ s₂ t₁ t₂ : State, s₁.eraseAcks = s₂.eraseAcks → step s₁ = .next t₁ → step s₂ = .next t₂ →
    t₁.eraseAcks = t₂.eraseAcks

/-- R109, delays apart: all five properties hold of every trace that obeys R107, and of the trace of every state that meets the
invariant. -/
def Obligations.LegalTracesAreBalanced : Prop :=
  (∀ (tr : List BusEvent) (t : TState), tracePhase .idle tr = some t → Transactions (busTraffic tr) t) ∧
  (∀ s : State, s.Inv → Transactions (busTraffic s.trace) s.tstate)
end

