-- ==== Sys2Proof/Laws/Decode.lean ====
section
/-! SUPPORT. The fields of a packed command word (R80, R88). -/

namespace Sys2Proof

@[simp] theorem fieldOp_packWord (op : Byte) (a : Addr7) (r g : Byte) : fieldOp (packWord op a r g) = op := by
  ext i hi
  simp only [fieldOp, packWord, BitVec.getElem_extractLsb', BitVec.getLsbD_append]
  simp [show i < 8 from hi]

@[simp] theorem fieldAddr_packWord (op : Byte) (a : Addr7) (r g : Byte) : fieldAddr (packWord op a r g) = a := by
  ext i hi
  simp only [fieldAddr, packWord, BitVec.getElem_extractLsb', BitVec.getLsbD_append]
  simp [show i < 7 from hi]

@[simp] theorem fieldRsv_packWord (op : Byte) (a : Addr7) (r g : Byte) : fieldRsv (packWord op a r g) = 0 := by
  ext i hi
  obtain rfl : i = 0 := by omega
  simp only [fieldRsv, packWord, BitVec.getElem_extractLsb', BitVec.getLsbD_append]
  simp

@[simp] theorem fieldReg_packWord (op : Byte) (a : Addr7) (r g : Byte) : fieldReg (packWord op a r g) = r := by
  ext i hi
  simp only [fieldReg, packWord, BitVec.getElem_extractLsb', BitVec.getLsbD_append]
  simp [show i < 8 from hi, show ¬ (16 + i < 8) by omega, show ¬ (16 + i - 8 < 7) by omega,
    show ¬ (16 + i - 8 - 7 < 1) by omega, show 16 + i - 8 - 7 - 1 = i by omega]

@[simp] theorem fieldArg_packWord (op : Byte) (a : Addr7) (r g : Byte) : fieldArg (packWord op a r g) = g := by
  ext i hi
  simp only [fieldArg, packWord, BitVec.getElem_extractLsb', BitVec.getLsbD_append]
  simp [show ¬ (24 + i < 8) by omega, show ¬ (24 + i - 8 < 7) by omega,
    show ¬ (24 + i - 8 - 7 < 1) by omega, show ¬ (24 + i - 8 - 7 - 1 < 8) by omega, show 24 + i - 8 - 7 - 1 - 8 = i by omega, hi]

/-- A word is its fields, RSV aside (R80). -/
theorem packWord_fields (w : Word) (h : fieldRsv w = 0) :
    packWord (fieldOp w) (fieldAddr w) (fieldReg w) (fieldArg w) = w := by
  have hr : w.getLsbD 15 = false := by
    have := congrArg (fun v : BitVec 1 => v.getLsbD 0) h
    simpa [fieldRsv] using this
  ext i hi
  simp only [packWord, fieldOp, fieldAddr, fieldReg, fieldArg, ← BitVec.getLsbD_eq_getElem, BitVec.getLsbD_append,
    BitVec.getLsbD_extractLsb']
  by_cases h1 : i < 8
  · simp [h1]
  · by_cases h2 : i - 8 < 7
    · simp [h1, h2, show 8 + (i - 8) = i by omega]
    · by_cases h3 : i - 8 - 7 < 1
      · have : i = 15 := by omega
        subst this; simpa [BitVec.getLsbD_eq_getElem] using hr
      · by_cases h4 : i - 8 - 7 - 1 < 8
        · simp [h1, h2, h3, h4, show 16 + (i - 8 - 7 - 1) = i by omega]
        · simp [h1, h2, h3, h4, show 24 + (i - 8 - 7 - 1 - 8) = i by omega]
          omega

/-- An appended pair as a number. -/
theorem toNat_append_add {m n : Nat} (x : BitVec m) (y : BitVec n) : (x ++ y).toNat = x.toNat * 2 ^ n + y.toNat := by
  rw [BitVec.toNat_append, ← Nat.shiftLeft_add_eq_or_of_lt y.isLt, Nat.shiftLeft_eq]

/-- A packed word as a number (R88). -/
theorem packWord_toNat (op : Byte) (a : Addr7) (r g : Byte) :
    (packWord op a r g).toNat = g.toNat * 2 ^ 24 + r.toNat * 2 ^ 16 + a.toNat * 2 ^ 8 + op.toNat := by
  have h0 : (0 : BitVec 1).toNat = 0 := rfl
  simp only [packWord, toNat_append_add, h0]
  omega

/-- An address byte as a number (R85). -/
theorem abyte_toNat (a : Addr7) (d : BitVec 1) : (abyte a d).toNat = a.toNat * 2 + d.toNat := toNat_append_add a d

/-- Bit 0 of an address byte is its direction (R85). -/
theorem abyte_bit0 (a : Addr7) (d : BitVec 1) : (abyte a d).getLsbD 0 = d.getLsbD 0 := by
  simp only [BitVec.getLsbD, abyte_toNat, Nat.testBit_zero, Nat.mul_add_mod_self_right]

/-- Bits 7:1 of an address byte are its address (R85). -/
theorem abyte_addr (a : Addr7) (d : BitVec 1) : (abyte a d).extractLsb' 1 7 = a := by
  have h := d.isLt
  have ha := a.isLt
  apply BitVec.eq_of_toNat_eq
  rw [BitVec.extractLsb'_toNat, abyte_toNat, Nat.shiftRight_eq_div_pow]
  omega

end Sys2Proof
end

