-- ==== Sys2Proof/Laws/State.lean ====
section
/-! SUPPORT. One lemma per field per named update of the state, so that no proof unfolds a record update. -/

namespace Sys2Proof.Machine

@[simp] theorem State.raise_build (c : FaultCode) (w : Word) (s : State) : (s.raise c w).build = s.build := rfl
@[simp] theorem State.raise_inputs (c : FaultCode) (w : Word) (s : State) : (s.raise c w).inputs = s.inputs := rfl
@[simp] theorem State.raise_busy (c : FaultCode) (w : Word) (s : State) : (s.raise c w).busy = false := rfl
@[simp] theorem State.raise_done (c : FaultCode) (w : Word) (s : State) : (s.raise c w).done = true := rfl
@[simp] theorem State.raise_faulted (c : FaultCode) (w : Word) (s : State) : (s.raise c w).faulted = true := rfl
@[simp] theorem State.raise_tstate (c : FaultCode) (w : Word) (s : State) : (s.raise c w).tstate = s.tstate := rfl
@[simp] theorem State.raise_drvState (c : FaultCode) (w : Word) (s : State) : (s.raise c w).drvState = s.drvState := rfl
@[simp] theorem State.raise_calOk (c : FaultCode) (w : Word) (s : State) : (s.raise c w).calOk = s.calOk := rfl
@[simp] theorem State.raise_fineValid (c : FaultCode) (w : Word) (s : State) : (s.raise c w).fineValid = s.fineValid := rfl
@[simp] theorem State.raise_faultCode (c : FaultCode) (w : Word) (s : State) : (s.raise c w).faultCode = c := rfl
@[simp] theorem State.raise_rxdata (c : FaultCode) (w : Word) (s : State) : (s.raise c w).rxdata = s.rxdata := rfl
@[simp] theorem State.raise_rx16 (c : FaultCode) (w : Word) (s : State) : (s.raise c w).rx16 = s.rx16 := rfl
@[simp] theorem State.raise_rawT (c : FaultCode) (w : Word) (s : State) : (s.raise c w).rawT = s.rawT := rfl
@[simp] theorem State.raise_rawP (c : FaultCode) (w : Word) (s : State) : (s.raise c w).rawP = s.rawP := rfl
@[simp] theorem State.raise_fine (c : FaultCode) (w : Word) (s : State) : (s.raise c w).fine = s.fine := rfl
@[simp] theorem State.raise_tOut (c : FaultCode) (w : Word) (s : State) : (s.raise c w).tOut = s.tOut := rfl
@[simp] theorem State.raise_pOut (c : FaultCode) (w : Word) (s : State) : (s.raise c w).pOut = s.pOut := rfl
@[simp] theorem State.raise_faultCmd (c : FaultCode) (w : Word) (s : State) : (s.raise c w).faultCmd = w := rfl
@[simp] theorem State.raise_curAddr (c : FaultCode) (w : Word) (s : State) : (s.raise c w).curAddr = s.curAddr := rfl
@[simp] theorem State.raise_curDir (c : FaultCode) (w : Word) (s : State) : (s.raise c w).curDir = s.curDir := rfl
@[simp] theorem State.raise_rxbuf (c : FaultCode) (w : Word) (s : State) : (s.raise c w).rxbuf = s.rxbuf := rfl
@[simp] theorem State.raise_cal (c : FaultCode) (w : Word) (s : State) : (s.raise c w).cal = s.cal := rfl
@[simp] theorem State.raise_mseq (c : FaultCode) (w : Word) (s : State) : (s.raise c w).mseq = [] := rfl
@[simp] theorem State.raise_pend (c : FaultCode) (w : Word) (s : State) : (s.raise c w).pend = none := rfl
@[simp] theorem State.raise_cmd (c : FaultCode) (w : Word) (s : State) : (s.raise c w).cmd = none := rfl
@[simp] theorem State.raise_trace (c : FaultCode) (w : Word) (s : State) : (s.raise c w).trace = s.trace := rfl
@[simp] theorem State.raise_hostData (c : FaultCode) (w : Word) (s : State) : (s.raise c w).hostData = s.hostData := rfl
@[simp] theorem State.raise_draws (c : FaultCode) (w : Word) (s : State) : (s.raise c w).draws = s.draws := rfl

@[simp] theorem State.accept_build (w : Word) (seq : List MStep) (s : State) : (s.accept w seq).build = s.build := rfl
@[simp] theorem State.accept_inputs (w : Word) (seq : List MStep) (s : State) : (s.accept w seq).inputs = s.inputs := rfl
@[simp] theorem State.accept_busy (w : Word) (seq : List MStep) (s : State) : (s.accept w seq).busy = true := rfl
@[simp] theorem State.accept_done (w : Word) (seq : List MStep) (s : State) : (s.accept w seq).done = false := rfl
@[simp] theorem State.accept_faulted (w : Word) (seq : List MStep) (s : State) : (s.accept w seq).faulted = s.faulted := rfl
@[simp] theorem State.accept_tstate (w : Word) (seq : List MStep) (s : State) : (s.accept w seq).tstate = s.tstate := rfl
@[simp] theorem State.accept_drvState (w : Word) (seq : List MStep) (s : State) : (s.accept w seq).drvState = s.drvState := rfl
@[simp] theorem State.accept_calOk (w : Word) (seq : List MStep) (s : State) : (s.accept w seq).calOk = s.calOk := rfl
@[simp] theorem State.accept_fineValid (w : Word) (seq : List MStep) (s : State) : (s.accept w seq).fineValid = s.fineValid := rfl
@[simp] theorem State.accept_faultCode (w : Word) (seq : List MStep) (s : State) : (s.accept w seq).faultCode = s.faultCode := rfl
@[simp] theorem State.accept_rxdata (w : Word) (seq : List MStep) (s : State) : (s.accept w seq).rxdata = s.rxdata := rfl
@[simp] theorem State.accept_rx16 (w : Word) (seq : List MStep) (s : State) : (s.accept w seq).rx16 = s.rx16 := rfl
@[simp] theorem State.accept_rawT (w : Word) (seq : List MStep) (s : State) : (s.accept w seq).rawT = s.rawT := rfl
@[simp] theorem State.accept_rawP (w : Word) (seq : List MStep) (s : State) : (s.accept w seq).rawP = s.rawP := rfl
@[simp] theorem State.accept_fine (w : Word) (seq : List MStep) (s : State) : (s.accept w seq).fine = s.fine := rfl
@[simp] theorem State.accept_tOut (w : Word) (seq : List MStep) (s : State) : (s.accept w seq).tOut = s.tOut := rfl
@[simp] theorem State.accept_pOut (w : Word) (seq : List MStep) (s : State) : (s.accept w seq).pOut = s.pOut := rfl
@[simp] theorem State.accept_faultCmd (w : Word) (seq : List MStep) (s : State) : (s.accept w seq).faultCmd = s.faultCmd := rfl
@[simp] theorem State.accept_curAddr (w : Word) (seq : List MStep) (s : State) : (s.accept w seq).curAddr = s.curAddr := rfl
@[simp] theorem State.accept_curDir (w : Word) (seq : List MStep) (s : State) : (s.accept w seq).curDir = s.curDir := rfl
@[simp] theorem State.accept_rxbuf (w : Word) (seq : List MStep) (s : State) : (s.accept w seq).rxbuf = s.rxbuf := rfl
@[simp] theorem State.accept_cal (w : Word) (seq : List MStep) (s : State) : (s.accept w seq).cal = s.cal := rfl
@[simp] theorem State.accept_mseq (w : Word) (seq : List MStep) (s : State) : (s.accept w seq).mseq = seq := rfl
@[simp] theorem State.accept_pend (w : Word) (seq : List MStep) (s : State) : (s.accept w seq).pend = s.pend := rfl
@[simp] theorem State.accept_cmd (w : Word) (seq : List MStep) (s : State) : (s.accept w seq).cmd = some w := rfl
@[simp] theorem State.accept_trace (w : Word) (seq : List MStep) (s : State) : (s.accept w seq).trace = s.trace := rfl
@[simp] theorem State.accept_hostData (w : Word) (seq : List MStep) (s : State) : (s.accept w seq).hostData = s.hostData := rfl
@[simp] theorem State.accept_draws (w : Word) (seq : List MStep) (s : State) : (s.accept w seq).draws = s.draws := rfl

@[simp] theorem State.issue_build (sym : Sym) (s : State) : (s.issue sym).build = s.build := rfl
@[simp] theorem State.issue_inputs (sym : Sym) (s : State) : (s.issue sym).inputs = s.inputs := rfl
@[simp] theorem State.issue_busy (sym : Sym) (s : State) : (s.issue sym).busy = s.busy := rfl
@[simp] theorem State.issue_done (sym : Sym) (s : State) : (s.issue sym).done = s.done := rfl
@[simp] theorem State.issue_faulted (sym : Sym) (s : State) : (s.issue sym).faulted = s.faulted := rfl
@[simp] theorem State.issue_tstate (sym : Sym) (s : State) : (s.issue sym).tstate = s.tstate := rfl
@[simp] theorem State.issue_drvState (sym : Sym) (s : State) : (s.issue sym).drvState = s.drvState := rfl
@[simp] theorem State.issue_calOk (sym : Sym) (s : State) : (s.issue sym).calOk = s.calOk := rfl
@[simp] theorem State.issue_fineValid (sym : Sym) (s : State) : (s.issue sym).fineValid = s.fineValid := rfl
@[simp] theorem State.issue_faultCode (sym : Sym) (s : State) : (s.issue sym).faultCode = s.faultCode := rfl
@[simp] theorem State.issue_rxdata (sym : Sym) (s : State) : (s.issue sym).rxdata = s.rxdata := rfl
@[simp] theorem State.issue_rx16 (sym : Sym) (s : State) : (s.issue sym).rx16 = s.rx16 := rfl
@[simp] theorem State.issue_rawT (sym : Sym) (s : State) : (s.issue sym).rawT = s.rawT := rfl
@[simp] theorem State.issue_rawP (sym : Sym) (s : State) : (s.issue sym).rawP = s.rawP := rfl
@[simp] theorem State.issue_fine (sym : Sym) (s : State) : (s.issue sym).fine = s.fine := rfl
@[simp] theorem State.issue_tOut (sym : Sym) (s : State) : (s.issue sym).tOut = s.tOut := rfl
@[simp] theorem State.issue_pOut (sym : Sym) (s : State) : (s.issue sym).pOut = s.pOut := rfl
@[simp] theorem State.issue_faultCmd (sym : Sym) (s : State) : (s.issue sym).faultCmd = s.faultCmd := rfl
@[simp] theorem State.issue_curAddr (sym : Sym) (s : State) : (s.issue sym).curAddr = s.curAddr := rfl
@[simp] theorem State.issue_curDir (sym : Sym) (s : State) : (s.issue sym).curDir = s.curDir := rfl
@[simp] theorem State.issue_rxbuf (sym : Sym) (s : State) : (s.issue sym).rxbuf = s.rxbuf := rfl
@[simp] theorem State.issue_cal (sym : Sym) (s : State) : (s.issue sym).cal = s.cal := rfl
@[simp] theorem State.issue_mseq (sym : Sym) (s : State) : (s.issue sym).mseq = s.mseq := rfl
@[simp] theorem State.issue_pend (sym : Sym) (s : State) : (s.issue sym).pend = some sym := rfl
@[simp] theorem State.issue_cmd (sym : Sym) (s : State) : (s.issue sym).cmd = s.cmd := rfl
@[simp] theorem State.issue_trace (sym : Sym) (s : State) : (s.issue sym).trace = s.trace := rfl
@[simp] theorem State.issue_hostData (sym : Sym) (s : State) : (s.issue sym).hostData = s.hostData := rfl
@[simp] theorem State.issue_draws (sym : Sym) (s : State) : (s.issue sym).draws = s.draws := rfl

@[simp] theorem State.record_build (e : BusEvent) (s : State) : (s.record e).build = s.build := rfl
@[simp] theorem State.record_inputs (e : BusEvent) (s : State) : (s.record e).inputs = s.inputs := rfl
@[simp] theorem State.record_busy (e : BusEvent) (s : State) : (s.record e).busy = s.busy := rfl
@[simp] theorem State.record_done (e : BusEvent) (s : State) : (s.record e).done = s.done := rfl
@[simp] theorem State.record_faulted (e : BusEvent) (s : State) : (s.record e).faulted = s.faulted := rfl
@[simp] theorem State.record_tstate (e : BusEvent) (s : State) : (s.record e).tstate = s.tstate := rfl
@[simp] theorem State.record_drvState (e : BusEvent) (s : State) : (s.record e).drvState = s.drvState := rfl
@[simp] theorem State.record_calOk (e : BusEvent) (s : State) : (s.record e).calOk = s.calOk := rfl
@[simp] theorem State.record_fineValid (e : BusEvent) (s : State) : (s.record e).fineValid = s.fineValid := rfl
@[simp] theorem State.record_faultCode (e : BusEvent) (s : State) : (s.record e).faultCode = s.faultCode := rfl
@[simp] theorem State.record_rxdata (e : BusEvent) (s : State) : (s.record e).rxdata = s.rxdata := rfl
@[simp] theorem State.record_rx16 (e : BusEvent) (s : State) : (s.record e).rx16 = s.rx16 := rfl
@[simp] theorem State.record_rawT (e : BusEvent) (s : State) : (s.record e).rawT = s.rawT := rfl
@[simp] theorem State.record_rawP (e : BusEvent) (s : State) : (s.record e).rawP = s.rawP := rfl
@[simp] theorem State.record_fine (e : BusEvent) (s : State) : (s.record e).fine = s.fine := rfl
@[simp] theorem State.record_tOut (e : BusEvent) (s : State) : (s.record e).tOut = s.tOut := rfl
@[simp] theorem State.record_pOut (e : BusEvent) (s : State) : (s.record e).pOut = s.pOut := rfl
@[simp] theorem State.record_faultCmd (e : BusEvent) (s : State) : (s.record e).faultCmd = s.faultCmd := rfl
@[simp] theorem State.record_curAddr (e : BusEvent) (s : State) : (s.record e).curAddr = s.curAddr := rfl
@[simp] theorem State.record_curDir (e : BusEvent) (s : State) : (s.record e).curDir = s.curDir := rfl
@[simp] theorem State.record_rxbuf (e : BusEvent) (s : State) : (s.record e).rxbuf = s.rxbuf := rfl
@[simp] theorem State.record_cal (e : BusEvent) (s : State) : (s.record e).cal = s.cal := rfl
@[simp] theorem State.record_mseq (e : BusEvent) (s : State) : (s.record e).mseq = s.mseq := rfl
@[simp] theorem State.record_pend (e : BusEvent) (s : State) : (s.record e).pend = none := rfl
@[simp] theorem State.record_cmd (e : BusEvent) (s : State) : (s.record e).cmd = s.cmd := rfl
@[simp] theorem State.record_trace (e : BusEvent) (s : State) : (s.record e).trace = s.trace ++ [e] := rfl
@[simp] theorem State.record_hostData (e : BusEvent) (s : State) : (s.record e).hostData = s.hostData := rfl
@[simp] theorem State.record_draws (e : BusEvent) (s : State) : (s.record e).draws = s.draws := rfl

@[simp] theorem State.receive_build (i : Nat) (d : Byte) (s : State) : (s.receive i d).build = s.build := rfl
@[simp] theorem State.receive_inputs (i : Nat) (d : Byte) (s : State) : (s.receive i d).inputs = s.inputs := rfl
@[simp] theorem State.receive_busy (i : Nat) (d : Byte) (s : State) : (s.receive i d).busy = s.busy := rfl
@[simp] theorem State.receive_done (i : Nat) (d : Byte) (s : State) : (s.receive i d).done = s.done := rfl
@[simp] theorem State.receive_faulted (i : Nat) (d : Byte) (s : State) : (s.receive i d).faulted = s.faulted := rfl
@[simp] theorem State.receive_tstate (i : Nat) (d : Byte) (s : State) : (s.receive i d).tstate = s.tstate := rfl
@[simp] theorem State.receive_drvState (i : Nat) (d : Byte) (s : State) : (s.receive i d).drvState = s.drvState := rfl
@[simp] theorem State.receive_calOk (i : Nat) (d : Byte) (s : State) : (s.receive i d).calOk = s.calOk := rfl
@[simp] theorem State.receive_fineValid (i : Nat) (d : Byte) (s : State) : (s.receive i d).fineValid = s.fineValid := rfl
@[simp] theorem State.receive_faultCode (i : Nat) (d : Byte) (s : State) : (s.receive i d).faultCode = s.faultCode := rfl
@[simp] theorem State.receive_rxdata (i : Nat) (d : Byte) (s : State) : (s.receive i d).rxdata = some d := rfl
@[simp] theorem State.receive_rx16 (i : Nat) (d : Byte) (s : State) : (s.receive i d).rx16 = s.rx16 := rfl
@[simp] theorem State.receive_rawT (i : Nat) (d : Byte) (s : State) : (s.receive i d).rawT = s.rawT := rfl
@[simp] theorem State.receive_rawP (i : Nat) (d : Byte) (s : State) : (s.receive i d).rawP = s.rawP := rfl
@[simp] theorem State.receive_fine (i : Nat) (d : Byte) (s : State) : (s.receive i d).fine = s.fine := rfl
@[simp] theorem State.receive_tOut (i : Nat) (d : Byte) (s : State) : (s.receive i d).tOut = s.tOut := rfl
@[simp] theorem State.receive_pOut (i : Nat) (d : Byte) (s : State) : (s.receive i d).pOut = s.pOut := rfl
@[simp] theorem State.receive_faultCmd (i : Nat) (d : Byte) (s : State) : (s.receive i d).faultCmd = s.faultCmd := rfl
@[simp] theorem State.receive_curAddr (i : Nat) (d : Byte) (s : State) : (s.receive i d).curAddr = s.curAddr := rfl
@[simp] theorem State.receive_curDir (i : Nat) (d : Byte) (s : State) : (s.receive i d).curDir = s.curDir := rfl
@[simp] theorem State.receive_rxbuf (i : Nat) (d : Byte) (s : State) : (s.receive i d).rxbuf = s.rxbuf.setIfInBounds i (some d) := rfl
@[simp] theorem State.receive_cal (i : Nat) (d : Byte) (s : State) : (s.receive i d).cal = s.cal := rfl
@[simp] theorem State.receive_mseq (i : Nat) (d : Byte) (s : State) : (s.receive i d).mseq = s.mseq := rfl
@[simp] theorem State.receive_pend (i : Nat) (d : Byte) (s : State) : (s.receive i d).pend = s.pend := rfl
@[simp] theorem State.receive_cmd (i : Nat) (d : Byte) (s : State) : (s.receive i d).cmd = s.cmd := rfl
@[simp] theorem State.receive_trace (i : Nat) (d : Byte) (s : State) : (s.receive i d).trace = s.trace := rfl
@[simp] theorem State.receive_hostData (i : Nat) (d : Byte) (s : State) : (s.receive i d).hostData = s.hostData := rfl
@[simp] theorem State.receive_draws (i : Nat) (d : Byte) (s : State) : (s.receive i d).draws = s.draws := rfl

@[simp] theorem State.address_build (b : Byte) (s : State) : (s.address b).build = s.build := rfl
@[simp] theorem State.address_inputs (b : Byte) (s : State) : (s.address b).inputs = s.inputs := rfl
@[simp] theorem State.address_busy (b : Byte) (s : State) : (s.address b).busy = s.busy := rfl
@[simp] theorem State.address_done (b : Byte) (s : State) : (s.address b).done = s.done := rfl
@[simp] theorem State.address_faulted (b : Byte) (s : State) : (s.address b).faulted = s.faulted := rfl
@[simp] theorem State.address_tstate (b : Byte) (s : State) : (s.address b).tstate = (match dirOf b with | .write => .tx | .read => .rx) := rfl
@[simp] theorem State.address_drvState (b : Byte) (s : State) : (s.address b).drvState = s.drvState := rfl
@[simp] theorem State.address_calOk (b : Byte) (s : State) : (s.address b).calOk = s.calOk := rfl
@[simp] theorem State.address_fineValid (b : Byte) (s : State) : (s.address b).fineValid = s.fineValid := rfl
@[simp] theorem State.address_faultCode (b : Byte) (s : State) : (s.address b).faultCode = s.faultCode := rfl
@[simp] theorem State.address_rxdata (b : Byte) (s : State) : (s.address b).rxdata = s.rxdata := rfl
@[simp] theorem State.address_rx16 (b : Byte) (s : State) : (s.address b).rx16 = s.rx16 := rfl
@[simp] theorem State.address_rawT (b : Byte) (s : State) : (s.address b).rawT = s.rawT := rfl
@[simp] theorem State.address_rawP (b : Byte) (s : State) : (s.address b).rawP = s.rawP := rfl
@[simp] theorem State.address_fine (b : Byte) (s : State) : (s.address b).fine = s.fine := rfl
@[simp] theorem State.address_tOut (b : Byte) (s : State) : (s.address b).tOut = s.tOut := rfl
@[simp] theorem State.address_pOut (b : Byte) (s : State) : (s.address b).pOut = s.pOut := rfl
@[simp] theorem State.address_faultCmd (b : Byte) (s : State) : (s.address b).faultCmd = s.faultCmd := rfl
@[simp] theorem State.address_curAddr (b : Byte) (s : State) : (s.address b).curAddr = b.extractLsb' 1 7 := rfl
@[simp] theorem State.address_curDir (b : Byte) (s : State) : (s.address b).curDir = dirOf b := rfl
@[simp] theorem State.address_rxbuf (b : Byte) (s : State) : (s.address b).rxbuf = s.rxbuf := rfl
@[simp] theorem State.address_cal (b : Byte) (s : State) : (s.address b).cal = s.cal := rfl
@[simp] theorem State.address_mseq (b : Byte) (s : State) : (s.address b).mseq = s.mseq := rfl
@[simp] theorem State.address_pend (b : Byte) (s : State) : (s.address b).pend = s.pend := rfl
@[simp] theorem State.address_cmd (b : Byte) (s : State) : (s.address b).cmd = s.cmd := rfl
@[simp] theorem State.address_trace (b : Byte) (s : State) : (s.address b).trace = s.trace := rfl
@[simp] theorem State.address_hostData (b : Byte) (s : State) : (s.address b).hostData = s.hostData := rfl
@[simp] theorem State.address_draws (b : Byte) (s : State) : (s.address b).draws = s.draws := rfl

@[simp] theorem State.returnWord_build (v : Word) (s : State) : (s.returnWord v).build = s.build := rfl
@[simp] theorem State.returnWord_inputs (v : Word) (s : State) : (s.returnWord v).inputs = s.inputs := rfl
@[simp] theorem State.returnWord_busy (v : Word) (s : State) : (s.returnWord v).busy = s.busy := rfl
@[simp] theorem State.returnWord_done (v : Word) (s : State) : (s.returnWord v).done = s.done := rfl
@[simp] theorem State.returnWord_faulted (v : Word) (s : State) : (s.returnWord v).faulted = s.faulted := rfl
@[simp] theorem State.returnWord_tstate (v : Word) (s : State) : (s.returnWord v).tstate = s.tstate := rfl
@[simp] theorem State.returnWord_drvState (v : Word) (s : State) : (s.returnWord v).drvState = s.drvState := rfl
@[simp] theorem State.returnWord_calOk (v : Word) (s : State) : (s.returnWord v).calOk = s.calOk := rfl
@[simp] theorem State.returnWord_fineValid (v : Word) (s : State) : (s.returnWord v).fineValid = s.fineValid := rfl
@[simp] theorem State.returnWord_faultCode (v : Word) (s : State) : (s.returnWord v).faultCode = s.faultCode := rfl
@[simp] theorem State.returnWord_rxdata (v : Word) (s : State) : (s.returnWord v).rxdata = s.rxdata := rfl
@[simp] theorem State.returnWord_rx16 (v : Word) (s : State) : (s.returnWord v).rx16 = s.rx16 := rfl
@[simp] theorem State.returnWord_rawT (v : Word) (s : State) : (s.returnWord v).rawT = s.rawT := rfl
@[simp] theorem State.returnWord_rawP (v : Word) (s : State) : (s.returnWord v).rawP = s.rawP := rfl
@[simp] theorem State.returnWord_fine (v : Word) (s : State) : (s.returnWord v).fine = s.fine := rfl
@[simp] theorem State.returnWord_tOut (v : Word) (s : State) : (s.returnWord v).tOut = s.tOut := rfl
@[simp] theorem State.returnWord_pOut (v : Word) (s : State) : (s.returnWord v).pOut = s.pOut := rfl
@[simp] theorem State.returnWord_faultCmd (v : Word) (s : State) : (s.returnWord v).faultCmd = s.faultCmd := rfl
@[simp] theorem State.returnWord_curAddr (v : Word) (s : State) : (s.returnWord v).curAddr = s.curAddr := rfl
@[simp] theorem State.returnWord_curDir (v : Word) (s : State) : (s.returnWord v).curDir = s.curDir := rfl
@[simp] theorem State.returnWord_rxbuf (v : Word) (s : State) : (s.returnWord v).rxbuf = s.rxbuf := rfl
@[simp] theorem State.returnWord_cal (v : Word) (s : State) : (s.returnWord v).cal = s.cal := rfl
@[simp] theorem State.returnWord_mseq (v : Word) (s : State) : (s.returnWord v).mseq = s.mseq := rfl
@[simp] theorem State.returnWord_pend (v : Word) (s : State) : (s.returnWord v).pend = s.pend := rfl
@[simp] theorem State.returnWord_cmd (v : Word) (s : State) : (s.returnWord v).cmd = s.cmd := rfl
@[simp] theorem State.returnWord_trace (v : Word) (s : State) : (s.returnWord v).trace = s.trace := rfl
@[simp] theorem State.returnWord_hostData (v : Word) (s : State) : (s.returnWord v).hostData = some v := rfl
@[simp] theorem State.returnWord_draws (v : Word) (s : State) : (s.returnWord v).draws = s.draws := rfl

@[simp] theorem State.returnAny_build (m : Word) (s : State) : (s.returnAny m).build = s.build := rfl
@[simp] theorem State.returnAny_inputs (m : Word) (s : State) : (s.returnAny m).inputs = s.inputs := rfl
@[simp] theorem State.returnAny_busy (m : Word) (s : State) : (s.returnAny m).busy = s.busy := rfl
@[simp] theorem State.returnAny_done (m : Word) (s : State) : (s.returnAny m).done = s.done := rfl
@[simp] theorem State.returnAny_faulted (m : Word) (s : State) : (s.returnAny m).faulted = s.faulted := rfl
@[simp] theorem State.returnAny_tstate (m : Word) (s : State) : (s.returnAny m).tstate = s.tstate := rfl
@[simp] theorem State.returnAny_drvState (m : Word) (s : State) : (s.returnAny m).drvState = s.drvState := rfl
@[simp] theorem State.returnAny_calOk (m : Word) (s : State) : (s.returnAny m).calOk = s.calOk := rfl
@[simp] theorem State.returnAny_fineValid (m : Word) (s : State) : (s.returnAny m).fineValid = s.fineValid := rfl
@[simp] theorem State.returnAny_faultCode (m : Word) (s : State) : (s.returnAny m).faultCode = s.faultCode := rfl
@[simp] theorem State.returnAny_rxdata (m : Word) (s : State) : (s.returnAny m).rxdata = s.rxdata := rfl
@[simp] theorem State.returnAny_rx16 (m : Word) (s : State) : (s.returnAny m).rx16 = s.rx16 := rfl
@[simp] theorem State.returnAny_rawT (m : Word) (s : State) : (s.returnAny m).rawT = s.rawT := rfl
@[simp] theorem State.returnAny_rawP (m : Word) (s : State) : (s.returnAny m).rawP = s.rawP := rfl
@[simp] theorem State.returnAny_fine (m : Word) (s : State) : (s.returnAny m).fine = s.fine := rfl
@[simp] theorem State.returnAny_tOut (m : Word) (s : State) : (s.returnAny m).tOut = s.tOut := rfl
@[simp] theorem State.returnAny_pOut (m : Word) (s : State) : (s.returnAny m).pOut = s.pOut := rfl
@[simp] theorem State.returnAny_faultCmd (m : Word) (s : State) : (s.returnAny m).faultCmd = s.faultCmd := rfl
@[simp] theorem State.returnAny_curAddr (m : Word) (s : State) : (s.returnAny m).curAddr = s.curAddr := rfl
@[simp] theorem State.returnAny_curDir (m : Word) (s : State) : (s.returnAny m).curDir = s.curDir := rfl
@[simp] theorem State.returnAny_rxbuf (m : Word) (s : State) : (s.returnAny m).rxbuf = s.rxbuf := rfl
@[simp] theorem State.returnAny_cal (m : Word) (s : State) : (s.returnAny m).cal = s.cal := rfl
@[simp] theorem State.returnAny_mseq (m : Word) (s : State) : (s.returnAny m).mseq = s.mseq := rfl
@[simp] theorem State.returnAny_pend (m : Word) (s : State) : (s.returnAny m).pend = s.pend := rfl
@[simp] theorem State.returnAny_cmd (m : Word) (s : State) : (s.returnAny m).cmd = s.cmd := rfl
@[simp] theorem State.returnAny_trace (m : Word) (s : State) : (s.returnAny m).trace = s.trace := rfl
@[simp] theorem State.returnAny_hostData (m : Word) (s : State) : (s.returnAny m).hostData = some (Config.anyWord s.draws &&& m) := rfl
@[simp] theorem State.returnAny_draws (m : Word) (s : State) : (s.returnAny m).draws = s.draws + 1 := rfl

@[simp] theorem State.withInputs_build (l : List Input) (s : State) : (s.withInputs l).build = s.build := rfl
@[simp] theorem State.withInputs_inputs (l : List Input) (s : State) : (s.withInputs l).inputs = l := rfl
@[simp] theorem State.withInputs_busy (l : List Input) (s : State) : (s.withInputs l).busy = s.busy := rfl
@[simp] theorem State.withInputs_done (l : List Input) (s : State) : (s.withInputs l).done = s.done := rfl
@[simp] theorem State.withInputs_faulted (l : List Input) (s : State) : (s.withInputs l).faulted = s.faulted := rfl
@[simp] theorem State.withInputs_tstate (l : List Input) (s : State) : (s.withInputs l).tstate = s.tstate := rfl
@[simp] theorem State.withInputs_drvState (l : List Input) (s : State) : (s.withInputs l).drvState = s.drvState := rfl
@[simp] theorem State.withInputs_calOk (l : List Input) (s : State) : (s.withInputs l).calOk = s.calOk := rfl
@[simp] theorem State.withInputs_fineValid (l : List Input) (s : State) : (s.withInputs l).fineValid = s.fineValid := rfl
@[simp] theorem State.withInputs_faultCode (l : List Input) (s : State) : (s.withInputs l).faultCode = s.faultCode := rfl
@[simp] theorem State.withInputs_rxdata (l : List Input) (s : State) : (s.withInputs l).rxdata = s.rxdata := rfl
@[simp] theorem State.withInputs_rx16 (l : List Input) (s : State) : (s.withInputs l).rx16 = s.rx16 := rfl
@[simp] theorem State.withInputs_rawT (l : List Input) (s : State) : (s.withInputs l).rawT = s.rawT := rfl
@[simp] theorem State.withInputs_rawP (l : List Input) (s : State) : (s.withInputs l).rawP = s.rawP := rfl
@[simp] theorem State.withInputs_fine (l : List Input) (s : State) : (s.withInputs l).fine = s.fine := rfl
@[simp] theorem State.withInputs_tOut (l : List Input) (s : State) : (s.withInputs l).tOut = s.tOut := rfl
@[simp] theorem State.withInputs_pOut (l : List Input) (s : State) : (s.withInputs l).pOut = s.pOut := rfl
@[simp] theorem State.withInputs_faultCmd (l : List Input) (s : State) : (s.withInputs l).faultCmd = s.faultCmd := rfl
@[simp] theorem State.withInputs_curAddr (l : List Input) (s : State) : (s.withInputs l).curAddr = s.curAddr := rfl
@[simp] theorem State.withInputs_curDir (l : List Input) (s : State) : (s.withInputs l).curDir = s.curDir := rfl
@[simp] theorem State.withInputs_rxbuf (l : List Input) (s : State) : (s.withInputs l).rxbuf = s.rxbuf := rfl
@[simp] theorem State.withInputs_cal (l : List Input) (s : State) : (s.withInputs l).cal = s.cal := rfl
@[simp] theorem State.withInputs_mseq (l : List Input) (s : State) : (s.withInputs l).mseq = s.mseq := rfl
@[simp] theorem State.withInputs_pend (l : List Input) (s : State) : (s.withInputs l).pend = s.pend := rfl
@[simp] theorem State.withInputs_cmd (l : List Input) (s : State) : (s.withInputs l).cmd = s.cmd := rfl
@[simp] theorem State.withInputs_trace (l : List Input) (s : State) : (s.withInputs l).trace = s.trace := rfl
@[simp] theorem State.withInputs_hostData (l : List Input) (s : State) : (s.withInputs l).hostData = s.hostData := rfl
@[simp] theorem State.withInputs_draws (l : List Input) (s : State) : (s.withInputs l).draws = s.draws := rfl

@[simp] theorem State.retire_build (rest : List MStep) (s : State) : (s.retire rest).build = s.build := by cases rest <;> rfl
@[simp] theorem State.retire_inputs (rest : List MStep) (s : State) : (s.retire rest).inputs = s.inputs := by cases rest <;> rfl
@[simp] theorem State.retire_nil_busy (s : State) : (s.retire []).busy = false := rfl
@[simp] theorem State.retire_cons_busy (m : MStep) (rest : List MStep) (s : State) : (s.retire (m :: rest)).busy = s.busy := rfl
@[simp] theorem State.retire_nil_done (s : State) : (s.retire []).done = true := rfl
@[simp] theorem State.retire_cons_done (m : MStep) (rest : List MStep) (s : State) : (s.retire (m :: rest)).done = s.done := rfl
@[simp] theorem State.retire_faulted (rest : List MStep) (s : State) : (s.retire rest).faulted = s.faulted := by cases rest <;> rfl
@[simp] theorem State.retire_tstate (rest : List MStep) (s : State) : (s.retire rest).tstate = s.tstate := by cases rest <;> rfl
@[simp] theorem State.retire_drvState (rest : List MStep) (s : State) : (s.retire rest).drvState = s.drvState := by cases rest <;> rfl
@[simp] theorem State.retire_calOk (rest : List MStep) (s : State) : (s.retire rest).calOk = s.calOk := by cases rest <;> rfl
@[simp] theorem State.retire_fineValid (rest : List MStep) (s : State) : (s.retire rest).fineValid = s.fineValid := by cases rest <;> rfl
@[simp] theorem State.retire_faultCode (rest : List MStep) (s : State) : (s.retire rest).faultCode = s.faultCode := by cases rest <;> rfl
@[simp] theorem State.retire_rxdata (rest : List MStep) (s : State) : (s.retire rest).rxdata = s.rxdata := by cases rest <;> rfl
@[simp] theorem State.retire_rx16 (rest : List MStep) (s : State) : (s.retire rest).rx16 = s.rx16 := by cases rest <;> rfl
@[simp] theorem State.retire_rawT (rest : List MStep) (s : State) : (s.retire rest).rawT = s.rawT := by cases rest <;> rfl
@[simp] theorem State.retire_rawP (rest : List MStep) (s : State) : (s.retire rest).rawP = s.rawP := by cases rest <;> rfl
@[simp] theorem State.retire_fine (rest : List MStep) (s : State) : (s.retire rest).fine = s.fine := by cases rest <;> rfl
@[simp] theorem State.retire_tOut (rest : List MStep) (s : State) : (s.retire rest).tOut = s.tOut := by cases rest <;> rfl
@[simp] theorem State.retire_pOut (rest : List MStep) (s : State) : (s.retire rest).pOut = s.pOut := by cases rest <;> rfl
@[simp] theorem State.retire_faultCmd (rest : List MStep) (s : State) : (s.retire rest).faultCmd = s.faultCmd := by cases rest <;> rfl
@[simp] theorem State.retire_curAddr (rest : List MStep) (s : State) : (s.retire rest).curAddr = s.curAddr := by cases rest <;> rfl
@[simp] theorem State.retire_curDir (rest : List MStep) (s : State) : (s.retire rest).curDir = s.curDir := by cases rest <;> rfl
@[simp] theorem State.retire_rxbuf (rest : List MStep) (s : State) : (s.retire rest).rxbuf = s.rxbuf := by cases rest <;> rfl
@[simp] theorem State.retire_cal (rest : List MStep) (s : State) : (s.retire rest).cal = s.cal := by cases rest <;> rfl
@[simp] theorem State.retire_mseq (rest : List MStep) (s : State) : (s.retire rest).mseq = rest := by cases rest <;> rfl
@[simp] theorem State.retire_pend (rest : List MStep) (s : State) : (s.retire rest).pend = s.pend := by cases rest <;> rfl
@[simp] theorem State.retire_nil_cmd (s : State) : (s.retire []).cmd = none := rfl
@[simp] theorem State.retire_cons_cmd (m : MStep) (rest : List MStep) (s : State) : (s.retire (m :: rest)).cmd = s.cmd := rfl
@[simp] theorem State.accept_commandWord (w : Word) (seq : List MStep) (s : State) : (s.accept w seq).commandWord = w := rfl
@[simp] theorem State.withInputs_commandWord (l : List Input) (s : State) : (s.withInputs l).commandWord = s.commandWord := rfl
@[simp] theorem State.retire_trace (rest : List MStep) (s : State) : (s.retire rest).trace = s.trace := by cases rest <;> rfl
@[simp] theorem State.retire_hostData (rest : List MStep) (s : State) : (s.retire rest).hostData = s.hostData := by cases rest <;> rfl
@[simp] theorem State.retire_draws (rest : List MStep) (s : State) : (s.retire rest).draws = s.draws := by cases rest <;> rfl

end Sys2Proof.Machine
end

