-- ==== Sys2Proof/Laws/Engine.lean ====
section
/-! SUPPORT. What the engine can do, said once: inversion lemmas for its actions, and the induction over the steps of MSEQ. -/

namespace Sys2Proof.Machine

/-- Inversion of a datapath step as an action. -/
theorem internal_done {r : Except FaultCode State} {s' : State} (h : internal r = .done s') : r = .ok s' := by
  cases r with
  | ok t => simpa [internal] using h
  | error c => simp [internal] at h

theorem internal_fail {r : Except FaultCode State} {c : FaultCode} (h : internal r = .fail c) : r = .error c := by
  cases r with
  | ok t => simp [internal] at h
  | error c' => simpa [internal] using h

theorem internal_ne_request {r : Except FaultCode State} {sym : Sym} : internal r ≠ .request sym := by
  cases r <;> simp [internal]

/-- Inversion of a temperature's store. -/
theorem storeTemperature_ok {r : Except FaultCode (Int × Int)} {s s' : State} (h : storeTemperature r s = .ok s') :
    ∃ f t : Int, r = .ok (f, t) ∧ s' = { s with fine := some (toReg f), tOut := some (toReg t), fineValid := true } := by
  cases r with
  | error c => cases h
  | ok v => exact ⟨v.1, v.2, rfl, (Except.ok.inj h).symm⟩

/-- Inversion of a pressure's store. -/
theorem storePressure_ok {r : Except FaultCode Int} {s s' : State} (h : storePressure r s = .ok s') :
    ∃ p : Int, r = .ok p ∧ s' = { s with pOut := some (toReg p), fineValid := false } := by
  cases r with
  | error c => cases h
  | ok p => exact ⟨p, rfl, (Except.ok.inj h).symm⟩

theorem stepLdcalA_ok {s s' : State} (h : stepLdcalA s = .ok s') :
    s.drvState = .uninit ∧ s.rxWritten 22 = true ∧
      s' = { s with cal := s.calFromBurstA, calOk := sentinelOk (s.coefficient .big 0), drvState := .calLoaded,
                    fineValid := false } := by
  unfold stepLdcalA at h
  split at h
  · simp at h
  · split at h
    · simp at h
    · simp_all

theorem stepPackAt_ok {s s' : State} (h : stepPackAt s = .ok s') :
    s.rxWritten 2 = true ∧ s' = { s with rawT := some ((bePair (s.rxByte 0) (s.rxByte 1)).setWidth 32) } := by
  unfold stepPackAt at h
  split at h
  · simp at h
  · simp_all

theorem stepPackAp_ok {s s' : State} (h : stepPackAp s = .ok s') :
    s.rxWritten 3 = true ∧ s' = { s with rawP := some (packAp (s.rxByte 0) (s.rxByte 1) (s.rxByte 2)) } := by
  unfold stepPackAp at h
  split at h
  · simp at h
  · simp_all

theorem stepCompAt_ok {s s' : State} (h : stepCompAt s = .ok s') :
    (s.calOk = false ∧ s' = { s with tOut := some 0 }) ∨
      (s.calOk = true ∧ ∃ b5 t : Int, s' = { s with fine := some (toReg b5), tOut := some (toReg t), fineValid := true }) := by
  unfold stepCompAt at h
  split at h
  · rename_i hc
    exact .inl ⟨by simpa using hc, (Except.ok.inj h).symm⟩
  · rename_i hc
    split at h
    · cases h
    · obtain ⟨f, t, _, ht⟩ := storeTemperature_ok h
      exact .inr ⟨by simpa using hc, f, t, ht⟩

theorem stepCompAp_ok {s s' : State} (h : stepCompAp s = .ok s') :
    ∃ p : Word, s' = { s with pOut := some p, fineValid := false } := by
  unfold stepCompAp at h
  split at h
  · exact ⟨_, (Except.ok.inj h).symm⟩
  · split at h
    · cases h
    · split at h
      · obtain ⟨p, _, hp⟩ := storePressure_ok h
        exact ⟨_, hp⟩
      · cases h

theorem stepLdcalB_ok {s s' : State} (h : stepLdcalB s = .ok s') :
    s.drvState = .uninit ∧ s.rxWritten 24 = true ∧
      s' = { s with cal := s.calFromBytesB, calOk := sentinelOkB s.build.sentinelB (s.coefficient s.build.bCalOrder 0),
                    drvState := .calLoaded, fineValid := false } := by
  unfold stepLdcalB at h
  split at h
  · simp at h
  · split at h
    · simp at h
    · simp_all

theorem stepUnpackB_ok {s s' : State} (h : stepUnpackB s = .ok s') :
    s.rxWritten 6 = true ∧
      s' = { s with rawP := some (pack20 (s.rxByte 0) (s.rxByte 1) (s.rxByte 2)),
                    rawT := some (pack20 (s.rxByte 3) (s.rxByte 4) (s.rxByte 5)) } := by
  cases hw : s.rxWritten 6
  · rw [stepUnpackB, hw] at h; cases h
  · rw [stepUnpackB, hw] at h
    exact ⟨rfl, (Except.ok.inj h).symm⟩

theorem stepCompBt_ok {s s' : State} (h : stepCompBt s = .ok s') :
    (s.calOk = false ∧ s' = { s with tOut := some 0 }) ∨
      (s.calOk = true ∧ ∃ f t : Int, s' = { s with fine := some (toReg f), tOut := some (toReg t), fineValid := true }) := by
  unfold stepCompBt at h
  split at h
  · rename_i hc
    exact .inl ⟨by simpa using hc, (Except.ok.inj h).symm⟩
  · rename_i hc
    split at h
    · cases h
    · obtain ⟨f, t, _, ht⟩ := storeTemperature_ok h
      exact .inr ⟨by simpa using hc, f, t, ht⟩

theorem stepCompBp_ok {s s' : State} (h : stepCompBp s = .ok s') :
    ∃ p : Word, s' = { s with pOut := some p, fineValid := false } := by
  unfold stepCompBp at h
  split at h
  · exact ⟨_, (Except.ok.inj h).symm⟩
  · split at h
    · cases h
    · split at h
      · obtain ⟨p, _, hp⟩ := storePressure_ok h
        exact ⟨_, hp⟩
      · cases h

theorem stepLatchRx16_ok {o : Nat} {s s' : State} (h : stepLatchRx16 o s = .ok s') :
    ∃ hi lo, s.rx o = some hi ∧ s.rx (o + 1) = some lo ∧ s' = { s with rx16 := some (bePair hi lo) } := by
  unfold stepLatchRx16 at h
  split at h
  · simp only [Except.ok.injEq] at h
    exact ⟨_, _, by assumption, by assumption, h.symm⟩
  · simp at h

/-- Everything a step that is done at once may write (R38): the rest of the state stays. -/
theorem action_done {m : MStep} {s s' : State} (h : action m s = .done s') :
    s' = { s with
      drvState := s'.drvState, calOk := s'.calOk, fineValid := s'.fineValid, rx16 := s'.rx16, rawT := s'.rawT,
      rawP := s'.rawP, fine := s'.fine, tOut := s'.tOut, pOut := s'.pOut, cal := s'.cal } := by
  cases m <;> simp only [action] at h
  case requireIdle => split at h <;> simp_all
  case requireUninit => split at h <;> simp_all
  case start => unfold requestStart at h; split at h <;> simp at h
  case wrb => unfold requestWrb at h; split at h <;> simp at h
  case rda => unfold requestRead at h; split at h <;> simp at h
  case rdnk => unfold requestRead at h; split at h <;> simp at h
  case stop => unfold requestStop at h; split at h <;> simp at h
  case latchRx16 => obtain ⟨_, _, _, _, rfl⟩ := stepLatchRx16_ok (internal_done h); rfl
  case delay => simp at h
  case ldcalA => obtain ⟨_, _, rfl⟩ := stepLdcalA_ok (internal_done h); rfl
  case packAt => obtain ⟨_, rfl⟩ := stepPackAt_ok (internal_done h); rfl
  case packAp => obtain ⟨_, rfl⟩ := stepPackAp_ok (internal_done h); rfl
  case compAt => obtain ⟨_, rfl⟩ | ⟨_, _, _, rfl⟩ := stepCompAt_ok (internal_done h) <;> rfl
  case compAp => obtain ⟨_, rfl⟩ := stepCompAp_ok (internal_done h); rfl
  case ldcalB => obtain ⟨_, _, rfl⟩ := stepLdcalB_ok (internal_done h); rfl
  case unpackB => obtain ⟨_, rfl⟩ := stepUnpackB_ok (internal_done h); rfl
  case compBt => obtain ⟨_, rfl⟩ | ⟨_, _, _, rfl⟩ := stepCompBt_ok (internal_done h) <;> rfl
  case compBp => obtain ⟨_, rfl⟩ := stepCompBp_ok (internal_done h); rfl
  case setReady => simp only [Action.done.injEq] at h; subst h; rfl
  case zeroOutputs => simp only [Action.done.injEq] at h; subst h; rfl

/-- A request depends on TSTATE alone (R101 to R105). -/
theorem action_request {m : MStep} {s t : State} {sym : Sym} (h : action m s = .request sym) (ht : t.tstate = s.tstate) :
    action m t = .request sym := by
  cases m <;> simp only [action] at h ⊢
  case requireIdle => split at h <;> simp at h
  case requireUninit => split at h <;> simp at h
  case start => simpa only [requestStart, ht] using h
  case wrb => simpa only [requestWrb, ht] using h
  case rda => simpa only [requestRead, ht] using h
  case rdnk => simpa only [requestRead, ht] using h
  case stop => simpa only [requestStop, ht] using h
  case delay => exact h
  case setReady => simp at h
  case zeroOutputs => simp at h
  all_goals exact absurd h internal_ne_request

/-- The induction over a run of the engine: what every elementary move keeps, the run keeps. The moves are a change of the
inputs, a fault, a step done at once, a request issued and a request completed. -/
theorem run_keeps {P : State → Prop}
    (inputs : ∀ (s : State) (l : List Input), P s → P (s.withInputs l))
    (fail : ∀ (m : MStep) (rest : List MStep) (s : State) (c : FaultCode),
      s.mseq = m :: rest → s.pend = none → action m s = .fail c → P s → P (s.raise c s.commandWord))
    (done : ∀ (m : MStep) (rest : List MStep) (s s' : State),
      s.mseq = m :: rest → s.pend = none → action m s = .done s' → P s → P (s'.retire rest))
    (issue : ∀ (m : MStep) (rest : List MStep) (s : State) (sym : Sym),
      s.mseq = m :: rest → s.pend = none → action m s = .request sym → P s → P (s.issue sym))
    (complete : ∀ (m : MStep) (rest : List MStep) (s : State) (sym : Sym) (ack : Bool) (d : Byte),
      s.mseq = m :: rest → s.pend = some sym → action m s = .request sym → P s → P (completed m sym ack d rest s)) :
    ∀ (seq : List MStep) (s : State), s.mseq = seq → s.pend = none → P s → P (run seq s) := by
  intro seq
  induction seq with
  | nil => intro s _ _ hs; exact hs
  | cons m rest ih =>
    intro s hm hp hs
    simp only [run]
    split
    · exact hs
    · rename_i l _
      have hl := inputs s l hs
      have hm' : (s.withInputs l).mseq = m :: rest := hm
      have hp' : (s.withInputs l).pend = none := hp
      split
      · rename_i c hc
        exact fail m rest _ c hm' hp' hc hl
      · rename_i s' hd
        have keep := action_done hd
        refine ih _ (State.retire_mseq _ _) ?_ (done m rest _ s' hm' hp' hd hl)
        rw [State.retire_pend, keep]; exact hp
      · rename_i sym hr
        have hi := issue m rest _ sym hm' hp' hr hl
        split
        · rename_i ack d more _
          refine ih _ ?_ ?_ (complete m rest _ sym ack d ?_ ?_ ?_ (inputs _ more hi))
          · simp [completed]
          · unfold completed effect; cases m <;> simp
            case wrb => cases s.tstate <;> simp
          · simpa using hm
          · simp
          · exact action_request hr rfl
        · exact hi

/-- The same induction for the engine going on by itself. -/
theorem resume_keeps {P : State → Prop} {s : State} (h : s.pend = none → P (run s.mseq s)) (hs : P s) : P (resume s) := by
  unfold resume
  split
  · exact hs
  · exact h ‹_›

/-- What the host's write of a legal word can come to (R90). -/
theorem command_cases (i : Instr) (seq : List MStep) (s : State) :
    (s.faulted = true ∧ command i seq s = s) ∨
    (s.faulted = false ∧ s.busy = true ∧ command i seq s = s.raise .cmdWhileBusy (encode i)) ∨
    (s.faulted = false ∧ s.busy = false ∧ i.admitted s.build.variant = false ∧
      command i seq s = s.raise .illegalCommand (encode i)) ∨
    (s.faulted = false ∧ s.busy = false ∧ i.admitted s.build.variant = true ∧
      command i seq s = run seq (s.accept (encode i) seq)) := by
  unfold command
  cases s.faulted <;> cases s.busy <;> cases i.admitted s.build.variant <;> simp

/-- A command the block takes (R90 steps 4 and 5). -/
theorem command_ready {i : Instr} {seq : List MStep} {s : State} (hf : s.faulted = false) (hb : s.busy = false)
    (ha : i.admitted s.build.variant = true) : command i seq s = run seq (s.accept (encode i) seq) := by
  simp [command, hf, hb, ha]

/-- The engine where a completion is next: a request is answered at once. -/
theorem run_answered {m : MStep} {rest : List MStep} {s : State} {sym : Sym} {ack : Bool} {d : Byte} {more : List Input}
    (hi : s.inputs = .complete ack d :: more) (ha : action m s = .request sym) :
    run (m :: rest) s = run rest (completed m sym ack d rest ((s.issue sym).withInputs more)) := by
  have hs : s.withInputs s.inputs = s := rfl
  have ht : engineTurn s.inputs = some s.inputs := by rw [hi]; rfl
  have hq : (s.issue sym).inputs = .complete ack d :: more := hi
  simp only [run, ht, hs, ha, hq]

/-- The engine where nothing holds it back: a step done at once. -/
theorem run_done {m : MStep} {rest : List MStep} {s s' : State} (ht : engineTurn s.inputs = some s.inputs)
    (ha : action m s = .done s') : run (m :: rest) s = run rest (s'.retire rest) := by
  have hs : s.withInputs s.inputs = s := rfl
  simp only [run, ht, hs, ha]

/-- The engine where nothing holds it back: a step that faults (R244). -/
theorem run_fail {m : MStep} {rest : List MStep} {s : State} {c : FaultCode} (ht : engineTurn s.inputs = some s.inputs)
    (ha : action m s = .fail c) : run (m :: rest) s = s.raise c s.commandWord := by
  have hs : s.withInputs s.inputs = s := rfl
  simp only [run, ht, hs, ha]

/-- The engine with no input to come: a request is left outstanding (R106). -/
theorem run_waits {m : MStep} {rest : List MStep} {s : State} {sym : Sym} (hi : s.inputs = [])
    (ha : action m s = .request sym) : run (m :: rest) s = s.issue sym := by
  have hs : s.withInputs s.inputs = s := rfl
  have ht : engineTurn s.inputs = some s.inputs := by rw [hi]; rfl
  have hq : (s.issue sym).inputs = [] := hi
  simp only [run, ht, hs, ha, hq]

end Sys2Proof.Machine
end

