-- ==== Sys2Proof/Laws/PerInstr.lean ====
section
/-! SUPPORT. Statements about every command, one lemma per constructor. -/

namespace Sys2Proof.Laws.Encoding

/-- The word of a command carries its opcode in OP and 0 in RSV (R80, R83). -/
def Statement (i : Instr) : Prop := fieldOp (encode i) = opcode i ∧ fieldRsv (encode i) = 0

theorem start : Statement .start := by simp [Statement, encode]
theorem wrb (v : Byte) : Statement (.wrb v) := by simp [Statement, encode]
theorem rda (i : Byte) : Statement (.rda i) := by simp [Statement, encode]
theorem rdnk (i : Byte) : Statement (.rdnk i) := by simp [Statement, encode]
theorem stop : Statement .stop := by simp [Statement, encode]
theorem rd1 (a : Addr7) (r o : Byte) : Statement (.rd1 a r o) := by simp [Statement, encode]
theorem rd2 (a : Addr7) (r o : Byte) : Statement (.rd2 a r o) := by simp [Statement, encode]
theorem rdburst (a : Addr7) (r n : Byte) : Statement (.rdburst a r n) := by simp [Statement, encode]
theorem wr1 (a : Addr7) (r v : Byte) : Statement (.wr1 a r v) := by simp [Statement, encode]
theorem setptr (a : Addr7) (r : Byte) : Statement (.setptr a r) := by simp [Statement, encode]
theorem rdcur (a : Addr7) (n : Byte) : Statement (.rdcur a n) := by simp [Statement, encode]
theorem ldcalA : Statement .ldcalA := by simp [Statement, encode]
theorem packAt : Statement .packAt := by simp [Statement, encode]
theorem packAp : Statement .packAp := by simp [Statement, encode]
theorem compAt : Statement .compAt := by simp [Statement, encode]
theorem compAp : Statement .compAp := by simp [Statement, encode]
theorem initA (a : Addr7) : Statement (.initA a) := by simp [Statement, encode]
theorem sampleA (a : Addr7) : Statement (.sampleA a) := by simp [Statement, encode]
theorem ldcalB : Statement .ldcalB := by simp [Statement, encode]
theorem unpackB : Statement .unpackB := by simp [Statement, encode]
theorem compBt : Statement .compBt := by simp [Statement, encode]
theorem compBp : Statement .compBp := by simp [Statement, encode]
theorem initB (a : Addr7) : Statement (.initB a) := by simp [Statement, encode]
theorem sampleB (a : Addr7) : Statement (.sampleB a) := by simp [Statement, encode]

end Sys2Proof.Laws.Encoding
end

