-- ==== Sys2Proof/Tests/Slice0.lean ====
section
/-! SUPPORT. The model's own tests: words of spec/95_test_vectors.md, one step of each command on small states, and the witnesses
that the hypotheses of the statements can be met. -/

open Sys2Proof Sys2Proof.Machine

namespace Sys2Proof.Tests

/-! ### Small states -/

/-- A build with every OPEN parameter chosen. -/
def bld (v : Variant) : Build where
  variant := v
  overflowMode := .wrap
  idRegA := 0xD0
  nIdReads := 2
  tPwronA := 10
  tPwronB := 2
  cfgF4 := 0x27
  cfgF5 := 0x00
  bCfgOrder := .f4First
  bCalOrder := .big
  sentinelB := .first

/-- A block just after reset, with inputs to come. -/
def after (v : Variant) (l : List Input) : State := { State.resetOf (bld v) with inputs := l }

/-- The next state, where there is one, passes a test. -/
def on (r : Result) (p : State → Bool) : Bool :=
  match r with
  | .next t => p t
  | _ => false

/-- The environment completes n requests, each with an ACK and the byte 0x55. -/
def cs (_ : Nat) : Bool × Byte := (true, 0x55)

/-- n such completions. -/
def cn (n : Nat) : List Input := answers ((List.range n).map cs)

/-- The host writes a word to CMD. -/
def wr (w : Word) : Input := .access (.write 0 4 w)

/-- The host reads an offset. -/
def rd (o : Word) : Input := .access (.read o 4)

/-- Reference calibration A (R172). -/
def calA : Vector Half 12 :=
  #v[0x0198, 0xFFB8, 0xC7D1, 0x7FE5, 0x7FF5, 0x5A71, 0x182E, 0x0004, 0x8000, 0xDDF9, 0x0B34, 0x0000]

/-- Reference calibration B (V4). -/
def calB : Vector Half 12 :=
  #v[0x6B70, 0x6743, 0xFC18, 0x8E7D, 0xD643, 0x0BD0, 0x0B27, 0x008C, 0xFFF9, 0x3C8C, 0xC6F8, 0x1770]

/-- A calibrated block with raw samples. -/
def calibrated (v : Variant) (t p : Word) : State :=
  { after v [] with
    cal := match v with | .a => calA | .b => calB
    calOk := true, drvState := .ready, rawT := some t, rawP := some p }

/-- The same after the temperature compensation. -/
def tempered (v : Variant) (t p f : Word) : State :=
  { calibrated v t p with fine := some f, fineValid := true }

/-- A block whose receive buffer holds the same byte everywhere. -/
def filled (v : Variant) (d : Byte) : State := { after v [] with rxbuf := Vector.replicate 32 (some d) }

/-- A block whose receive buffer starts with some bytes. -/
def buffered (v : Variant) (l : List Byte) : State :=
  { after v [] with rxbuf := Vector.ofFn fun i => l[i.val]? }

/-- A block in a phase of a transaction, with inputs to come. -/
def phase (t : TState) (l : List Input) : State := { after .a l with tstate := t }

/-- A block that waits for the S of a START. -/
def waiting (l : List Input) : State :=
  { after .a l with busy := true, cmd := some 1, mseq := [.start], pend := some .start }

/-- A block in the fault state. -/
def faulty (l : List Input) : State := faultState .protocolViolation 5 (after .a l)

/-! ### Well-formedness: each check refuses a term -/

theorem test_wf_rda_index : (Instr.rda 31).wf = true ∧ (Instr.rda 32).wf = false := by decide
theorem test_wf_rdnk_index : (Instr.rdnk 31).wf = true ∧ (Instr.rdnk 32).wf = false := by decide
theorem test_wf_rd1_offset : (Instr.rd1 0x77 0xD0 31).wf = true ∧ (Instr.rd1 0x77 0xD0 32).wf = false := by decide
theorem test_wf_rd2_offset : (Instr.rd2 0x77 0xF6 30).wf = true ∧ (Instr.rd2 0x77 0xF6 31).wf = false := by decide
theorem test_wf_rdburst_count :
    (Instr.rdburst 0x77 0xAA 1).wf = true ∧ (Instr.rdburst 0x77 0xAA 32).wf = true ∧
    (Instr.rdburst 0x77 0xAA 0).wf = false ∧ (Instr.rdburst 0x77 0xAA 33).wf = false := by decide
theorem test_wf_rdcur_count :
    (Instr.rdcur 0x68 1).wf = true ∧ (Instr.rdcur 0x68 32).wf = true ∧
    (Instr.rdcur 0x68 0).wf = false ∧ (Instr.rdcur 0x68 33).wf = false := by decide
theorem test_builtIn :
    Instr.ldcalB.builtIn .a = false ∧ Instr.ldcalA.builtIn .b = false ∧ Instr.stop.builtIn .b = true := by decide

/-! ### Decoding: the words of V10 and V11 -/

theorem test_decode_transport :
    decode 0x00000001 = .ok .start ∧ decode 0xEE000002 = .ok (.wrb 0xEE) ∧ decode 0x03000003 = .ok (.rda 3) ∧
    decode 0x00000004 = .ok (.rdnk 0) ∧ decode 0x00000005 = .ok .stop := ⟨rfl, rfl, rfl, rfl, rfl⟩

theorem test_decode_register_access :
    decode 0x00D07710 = .ok (.rd1 0x77 0xD0 0) ∧ decode 0x028A7611 = .ok (.rd2 0x76 0x8A 2) ∧
    decode 0x16AA7712 = .ok (.rdburst 0x77 0xAA 22) ∧ decode 0x34F47713 = .ok (.wr1 0x77 0xF4 0x34) ∧
    decode 0x00006814 = .ok (.setptr 0x68 0) ∧ decode 0x03006815 = .ok (.rdcur 0x68 3) :=
  ⟨rfl, rfl, rfl, rfl, rfl, rfl⟩

theorem test_decode_variant_a :
    decode 0x00000020 = .ok .ldcalA ∧ decode 0x00000021 = .ok .packAt ∧ decode 0x00000022 = .ok .packAp ∧
    decode 0x00000023 = .ok .compAt ∧ decode 0x00000024 = .ok .compAp ∧ decode 0x00007728 = .ok (.initA 0x77) ∧
    decode 0x00007729 = .ok (.sampleA 0x77) := ⟨rfl, rfl, rfl, rfl, rfl, rfl, rfl⟩

theorem test_decode_variant_b :
    decode 0x00000030 = .ok .ldcalB ∧ decode 0x00000031 = .ok .unpackB ∧ decode 0x00000033 = .ok .compBt ∧
    decode 0x00000034 = .ok .compBp ∧ decode 0x00007638 = .ok (.initB 0x76) ∧ decode 0x00007639 = .ok (.sampleB 0x76) :=
  ⟨rfl, rfl, rfl, rfl, rfl, rfl⟩

theorem test_decode_illegal :
    decode 0x00000000 = .error .unassignedOp ∧ decode 0x00000006 = .error .unassignedOp ∧
    decode 0x00000032 = .error .unassignedOp ∧ decode 0x00008001 = .error .rsvSet ∧
    decode 0x01000001 = .error .unusedField ∧ decode 0x00770001 = .error .unusedField ∧
    decode 0x00017728 = .error .unusedField ∧ decode 0x00016815 = .error .unusedField ∧
    decode 0x00AA7712 = .error .operandRange ∧ decode 0x21AA7712 = .error .operandRange ∧
    decode 0x1F007711 = .error .operandRange ∧ decode 0x20000003 = .error .operandRange :=
  ⟨rfl, rfl, rfl, rfl, rfl, rfl, rfl, rfl, rfl, rfl, rfl, rfl⟩

theorem test_encode_words :
    encode (.rd2 0x77 0xF6 30) = 0x1EF67711 ∧ encode (.wr1 0x77 0xF4 0x2E) = 0x2EF47713 ∧
    encode (.sampleB 0x76) = 0x00007639 ∧ encode (addrR 0x77) = 0xEF000002 := by decide

/-! ### Transport (section 2.2 of the vectors) -/

/-- V12. -/
theorem test_start : on (exec .start (after .a (cn 1))) (fun t => t.trace = [.start] ∧ t.tstate = .started ∧ t.done) = true := by
  decide

/-- V15, V24T. -/
theorem test_start_phases :
    on (exec .start (phase .started (cn 1))) (fun t => t.trace = [] ∧ t.faultCode = .protocolViolation) = true ∧
    on (exec .start (phase .tx (cn 1))) (fun t => t.trace = [.repStart] ∧ t.tstate = .started) = true := by decide

/-- V18, V20T: a NACK is recorded and ignored; the READ direction leads to RX. -/
theorem test_wrb :
    on (exec (.wrb 0xEE) (phase .started [.complete false 0]))
      (fun t => t.trace = [.write 0xEE false] ∧ t.tstate = .tx ∧ t.xferWord = 0x077) = true ∧
    on (exec (.wrb 0xEF) (phase .started [.complete true 0])) (fun t => t.tstate = .rx ∧ t.xferWord = 0x177) = true := by
  decide

/-- V19, V21T. -/
theorem test_reads :
    on (exec (.rda 0) (phase .rx [.complete true 0x12]))
      (fun t => t.trace = [.read 0x12 true] ∧ t.rx 0 = some 0x12 ∧ t.tstate = .rx) = true ∧
    on (exec (.rdnk 1) (phase .rx [.complete true 0x34]))
      (fun t => t.trace = [.read 0x34 false] ∧ t.rxdata = some 0x34 ∧ t.tstate = .rxend) = true ∧
    on (exec (.rdnk 1) (phase .rxend [.complete true 0x34])) (fun t => t.trace = [] ∧ t.faultCode = .protocolViolation) = true := by
  decide

/-- V13, V17. -/
theorem test_stop :
    on (exec .stop (after .a (cn 1))) (fun t => t.statusWord = 0x00020006 ∧ t.faultCmd = 5 ∧ t.trace = []) = true ∧
    on (exec .stop (phase .tx (cn 1))) (fun t => t.trace = [.stop] ∧ t.tstate = .idle) = true := by decide

/-- V27T: the command waits, no fault. -/
theorem test_start_hangs :
    on (exec .start (after .a [])) (fun t => t.busy ∧ t.done = false ∧ t.faulted = false ∧ t.trace = []) = true := by decide

/-! ### Register access (section 2.3) -/

/-- V30. -/
theorem test_rd1 : on (exec (.rd1 0x77 0xD0 0) (after .a (cn 7))) (fun t =>
    t.trace = [.start, .write 0xEE true, .write 0xD0 true, .repStart, .write 0xEF true, .read 0x55 false, .stop] ∧
    t.rx 0 = some 0x55 ∧ t.xferWord = 0x177) = true := by decide

/-- V32. -/
theorem test_rd2 : on (exec (.rd2 0x77 0xF6 30) (after .a (cn 5 ++ [.complete true 1, .complete true 2, .complete true 0])))
    (fun t => t.rx16 = some 0x0102 ∧ t.rx 30 = some 1 ∧ t.rx 31 = some 2 ∧ t.rx 29 = none ∧ t.trace.length = 8) = true := by
  decide

/-- V34: 38 events. -/
theorem test_rdburst : on (exec (.rdburst 0x77 0x00 32) (after .a (cn 38))) (fun t =>
    t.trace.length = 38 ∧ t.trace.count (.read 0x55 true) = 31 ∧ t.trace.count (.read 0x55 false) = 1 ∧ t.rx 31 = some 0x55)
    = true := by decide +kernel

/-- V35. -/
theorem test_wr1 : on (exec (.wr1 0x77 0xF4 0x2E) (after .a (cn 5))) (fun t =>
    t.trace = [.start, .write 0xEE true, .write 0xF4 true, .write 0x2E true, .stop] ∧ t.xferWord = 0x077) = true := by decide

/-- V36. -/
theorem test_setptr : on (exec (.setptr 0x68 0) (after .a (cn 4))) (fun t =>
    t.trace = [.start, .write 0xD0 true, .write 0 true, .stop] ∧ t.xferWord = 0x068) = true := by decide

/-- V37. -/
theorem test_rdcur :
    on (exec (.rdcur 0x68 3) (after .a (cn 2 ++ [.complete true 0x45, .complete true 0x30, .complete true 0x12] ++ cn 1)))
    (fun t => t.trace = [.start, .write 0xD1 true, .read 0x45 true, .read 0x30 true, .read 0x12 false, .stop] ∧
      t.rx 2 = some 0x12 ∧ t.xferWord = 0x168) = true := by decide

/-- V26T: a composite needs IDLE, and issues no symbol. -/
theorem test_rd1_needs_idle : on (exec (.rd1 0x77 0xD0 0) (phase .tx (cn 7))) (fun t =>
    t.trace = [] ∧ t.faultCode = .protocolViolation ∧ t.tstate = .tx) = true := by decide

/-! ### Variant A (V1 to V4, section 2.4) -/

/-- V4, V3 case b and c: the first coefficient decides CAL_OK. -/
theorem test_ldcalA :
    on (exec .ldcalA (buffered .a [0x01, 0x98, 0xFF, 0xB8, 0xC7, 0xD1, 0x7F, 0xE5, 0x7F, 0xF5, 0x5A, 0x71, 0x18, 0x2E, 0x00,
      0x04, 0x80, 0x00, 0xDD, 0xF9, 0x0B, 0x34])) (fun t => t.cal = calA ∧ t.calOk ∧ t.drvState = .calLoaded) = true ∧
    on (exec .ldcalA (filled .a 0xFF)) (fun t => t.calOk = false ∧ t.drvState = .calLoaded) = true := by decide

/-- V58, V59. -/
theorem test_ldcalA_faults :
    on (exec .ldcalA (calibrated .a 0 0)) (fun t => t.faultCode = .calReload ∧ t.cal = calA) = true ∧
    on (exec .ldcalA (buffered .a (List.replicate 21 0x11)))
      (fun t => t.faultCode = .unwrittenOperand ∧ t.drvState = .uninit) = true := by decide

/-- V40. -/
theorem test_packAt : on (exec .packAt (buffered .a [0x6C, 0xFA])) (fun t => t.rawT = some 27898) = true := by decide

/-- V41, V42. -/
theorem test_packAp :
    on (exec .packAp (buffered .a [0x5D, 0x23, 0xFF])) (fun t => t.rawP = some 23843) = true ∧
    on (exec .packAp (buffered .a [0x5D, 0x23])) (fun t => t.rawP = none ∧ t.faultCode = .unwrittenOperand) = true := by decide

/-- V1, V45. -/
theorem test_compAt :
    on (exec .compAt (calibrated .a 27898 0)) (fun t => t.tOut = some 150 ∧ t.fine = some 2400 ∧ t.fineValid) = true ∧
    on (exec .compAt (calibrated .a 65535 0)) (fun t => t.tOut = some 2623 ∧ t.fine = some 41973) = true := by decide

/-- V47, V48: the corner of the width under both modes. -/
theorem test_compAt_overflow :
    calcAT .wrap 65535 65535 0 (-8711) 2868 = .ok (-6233, -390) ∧
    calcAT .fault 65535 65535 0 (-8711) 2868 = .error .overflow := by decide

/-- V2, V53. -/
theorem test_compAp :
    on (exec .compAp (tempered .a 0 23843 2400)) (fun t => t.pOut = some 69964 ∧ t.fineValid = false) = true ∧
    on (exec .compAp (tempered .a 0 65535 2400)) (fun t => t.pOut = some 195160) = true := by decide

/-- V55, V8, V49. -/
theorem test_compAp_stale_and_overflow :
    on (exec .compAp (calibrated .a 0 23843)) (fun t => t.faultCode = .staleFine ∧ t.pOut = none) = true ∧
    calcAP .wrap 0 2400 408 (-72) (-14383) 32741 6190 4 = .ok 252712 ∧
    calcAP .fault 0 2400 408 (-72) (-14383) 32741 6190 4 = .error .overflow := by decide

/-- V60, V78: 43 events and READY; the answers are all 0x55, so CAL_OK = 1. -/
theorem test_initA : on (exec (.initA 0x77) (after .a (cn 43)))
    (fun t => t.trace.length = 43 ∧ t.statusWord = 0x00000602 ∧ t.trace.head? = some (.delay 10)) = true := by decide +kernel

/-- V61. -/
theorem test_initA_reload : on (exec (.initA 0x77) { calibrated .a 0 0 with inputs := cn 43 })
    (fun t => t.faultCode = .calReload ∧ t.trace = []) = true := by decide

/-- V63 with the bytes of P2. -/
theorem test_sampleA :
    on (exec (.sampleA 0x77) { calibrated .a 0 0 with
      inputs := cn 11 ++ [.complete true 0x6C, .complete true 0xFA] ++ cn 12 ++ [.complete true 0x5D, .complete true 0x23]
        ++ cn 6 ++ [.complete true 0, .complete true 0] })
    (fun t => t.tOut = some 150 ∧ t.pOut = some 69964 ∧ t.rx16 = some 0x5D23 ∧ t.trace.length = 35) = true := by decide

/-- V71, V62. -/
theorem test_sampleA_no_traffic :
    on (exec (.sampleA 0x77) (after .a [])) (fun t => t.tOut = some 0 ∧ t.pOut = some 0 ∧ t.statusWord = 2 ∧ t.trace = []) = true ∧
    on (exec (.sampleA 0x77) (phase .tx [])) (fun t => t.faultCode = .protocolViolation ∧ t.tOut = none) = true := by decide

/-! ### Variant B (section 2.5) -/

/-- V4. -/
theorem test_ldcalB :
    on (exec .ldcalB (buffered .b [0x6B, 0x70, 0x67, 0x43, 0xFC, 0x18, 0x8E, 0x7D, 0xD6, 0x43, 0x0B, 0xD0, 0x0B, 0x27, 0x00,
      0x8C, 0xFF, 0xF9, 0x3C, 0x8C, 0xC6, 0xF8, 0x17, 0x70])) (fun t => t.cal = calB ∧ t.calOk) = true := by decide

/-- R203 on the bytes of P3. -/
theorem test_unpackB : on (exec .unpackB (buffered .b [0x65, 0x5A, 0xC0, 0x7E, 0xED, 0x00]))
    (fun t => t.rawP = some 415148 ∧ t.rawT = some 519888) = true := by decide

/-- V20. -/
theorem test_compBt : on (exec .compBt (calibrated .b 519888 0))
    (fun t => t.tOut = some 2508 ∧ t.fine = some 128422 ∧ t.fineValid) = true := by decide

/-- V21, V6. -/
theorem test_compBp :
    on (exec .compBp (tempered .b 0 415148 128422)) (fun t => t.pOut = some 25767233 ∧ t.fineValid = false) = true ∧
    on (exec .compBp { tempered .b 0 415148 128422 with cal := calB.set 3 0 })
      (fun t => t.pOut = some 0 ∧ t.faulted = false ∧ t.fineValid = false) = true := by decide

/-- V65: 107 events. -/
theorem test_initB : on (exec (.initB 0x76) (after .b (cn 107)))
    (fun t => t.trace.length = 107 ∧ t.statusWord = 0x00100602 ∧ t.rx 23 = some 0x55 ∧ t.rx 24 = none) = true := by decide +kernel

/-- P3, step 2. -/
theorem test_sampleB :
    on (exec (.sampleB 0x76) { calibrated .b 0 0 with
      inputs := cn 5 ++ [.complete true 0x65, .complete true 0x5A, .complete true 0xC0, .complete true 0x7E,
        .complete true 0xED, .complete true 0x00] ++ cn 1 })
    (fun t => t.tOut = some 2508 ∧ t.pOut = some 25767233 ∧ t.trace.length = 12 ∧ t.xferWord = 0x176) = true := by decide

/-- The units of R168 and R208 on the source's results. -/
theorem test_units :
    celsiusA 150 = 15 ∧ hectopascalA 69964 = 699.64 ∧ celsiusB 2508 = 25.08 ∧ hectopascalB 25767233 = 1006.5325390625 := by
  have h : (150 : Word).toInt = 150 ∧ (69964 : Word).toInt = 69964 ∧ (2508 : Word).toInt = 2508 ∧
    (25767233 : Word).toNat = 25767233 := by decide
  norm_num [celsiusA, hectopascalA, celsiusB, hectopascalB, h]

/-! ### The host port and faults (section 2.6) -/

/-- V70. -/
theorem test_reset_status : (after .a []).statusWord = 0 ∧ (after .b []).statusWord = 0x00100000 := by decide

/-- V72, V73. -/
theorem test_cmd_while_busy :
    on (step (waiting [wr 0x00000005, .complete true 0])) (fun t => t.statusWord = 0x00030006 ∧ t.faultCmd = 5 ∧ t.pend = none ∧
      t.trace = []) = true ∧
    on (step (waiting [wr 0x00000000])) (fun t => t.faultCode = .cmdWhileBusy) = true := by decide

/-- V74. -/
theorem test_illegal_before_protocol :
    on (step (phase .tx [wr 0x28D07710])) (fun t => t.faultCode = .illegalCommand ∧ t.faultCmd = 0x28D07710) = true := by decide

/-- V75, V76. -/
theorem test_illegal_access :
    on (step (after .a [.access (.write 4 4 0)])) (fun t => t.faultCmd = 0x80000004 ∧ t.statusWord = 0x00090006) = true ∧
    on (step (after .a [rd 0x180])) (fun t => t.faultCmd = 0x80000180) = true ∧
    on (step (after .a [rd 0x230])) (fun t => t.faultCmd = 0x80000230) = true ∧
    on (step (after .a [rd 0x02C])) (fun t => t.faultCmd = 0x8000002C) = true ∧
    on (step (after .a [.access (.read 4 1)])) (fun t => t.faultCmd = 0x80000004) = true := by decide

/-- V77. -/
theorem test_fault_is_sticky : on (step (faulty [wr 0x00000001])) (fun t => t = faulty []) = true := by decide

/-- R71, log 2: the host reads STATUS between two moves of the engine. -/
theorem test_read_between_moves :
    on (step { buffered .a [0x6C, 0xFA] with inputs := [wr 0x00000021, .hold 0] })
      (fun t => t.busy ∧ t.rawT = none) = true := by decide

/-! ### Witnesses: the hypotheses of each statement can be met, clause by clause, at the ends of their ranges -/

theorem witness_ResetEvent : (waiting [.reset]).inputs = .reset :: [] := rfl

theorem witness_InvariantAtReset : (bld .a).wf ∧ (bld .b).wf := by decide

/-- The invariant holds while the environment is waited for. -/
theorem waiting_inv (l : List Input) : (waiting l).Inv where
  buildWf := by show 2 ≤ 2; decide
  busyIff := rfl
  busyClear := fun _ => ⟨rfl, rfl⟩
  cmdHeld := rfl
  pendHead := by
    intro sym h
    obtain rfl : Sym.start = sym := Option.some.inj h
    exact ⟨.start, [], rfl, rfl⟩
  seqInBuffer := rfl
  seqBuilt := rfl
  faultIff := ⟨fun h => (Bool.false_ne_true h).elim, fun h => (h rfl).elim⟩
  faultDone := fun h => (Bool.false_ne_true h).elim
  fineWritten := fun h => (Bool.false_ne_true h).elim
  calUnloaded := fun _ => ⟨rfl, rfl⟩
  calLastA := fun _ => rfl
  rawT20 := rfl
  rawP20 := rfl
  tracePhase := rfl

theorem witness_InvariantKeptByStep : (waiting (cn 1)).Inv ∧ ∃ t, step (waiting (cn 1)) = .next t := ⟨waiting_inv _, _, rfl⟩

theorem witness_BuildNeverWritten : ∃ t, step (waiting (cn 1)) = .next t := ⟨_, rfl⟩

theorem witness_StepRunsDecodedInstruction :
    (after .a [wr 0x00007729]).inputs = .access (.write 0 4 0x00007729) :: [] ∧ decode 0x00007729 = .ok (.sampleA 0x77) :=
  ⟨rfl, rfl⟩

theorem witness_DecodeOfEncode :
    (Instr.rdburst 0x7F 0xFF 32).wf = true ∧ (Instr.rd2 0 0 30).wf = true ∧ (Instr.rda 31).wf = true ∧ Instr.stop.wf = true := by
  decide

theorem witness_EncodeOfDecode : decode 0x20FF7F12 = .ok (.rdburst 0x7F 0xFF 32) := rfl

/-- The four kinds of illegal word and the variant not built. -/
theorem witness_IllegalWordRaisesIllegalCommand :
    (after .a []).faulted = false ∧ (after .a []).busy = false ∧ legalWord .a 0x00000032 = false ∧
    legalWord .a 0x00008001 = false ∧ legalWord .a 0x01000001 = false ∧ legalWord .a 0x21AA7712 = false ∧
    legalWord .a 0x00000030 = false ∧ legalWord .b 0x00000020 = false ∧ legalWord .a 0x20AA7712 = true := by decide

theorem witness_WriteWhileBusyFaults :
    (waiting [wr 5]).inputs = .access (.write 0 4 5) :: [] ∧ (waiting [wr 5]).faulted = false ∧ (waiting [wr 5]).busy = true :=
  ⟨rfl, rfl, rfl⟩

/-- The invariant holds in the fault state. -/
theorem faulty_inv (l : List Input) : (faulty l).Inv where
  buildWf := by show 2 ≤ 2; decide
  busyIff := rfl
  busyClear := fun h => (Bool.false_ne_true h).elim
  cmdHeld := rfl
  pendHead := fun _ h => by cases h
  seqInBuffer := rfl
  seqBuilt := rfl
  faultIff := ⟨fun _ h => (by cases h), fun _ => rfl⟩
  faultDone := fun _ => rfl
  fineWritten := fun h => (Bool.false_ne_true h).elim
  calUnloaded := fun _ => ⟨rfl, rfl⟩
  calLastA := fun _ => rfl
  rawT20 := rfl
  rawP20 := rfl
  tracePhase := rfl

theorem witness_FaultStateIsSticky :
    (faulty [wr 1]).Inv ∧ (faulty [wr 1]).faulted = true ∧ (∀ more, (faulty [wr 1]).inputs ≠ .reset :: more) ∧
    ∃ t, step (faulty [wr 1]) = .next t :=
  ⟨faulty_inv _, rfl, fun _ h => (by cases h), _, rfl⟩

/-- Unmapped offsets at the ends of the map, a misaligned one, a wrong size, a read of CMD, a write elsewhere. -/
theorem witness_IllegalAccessFaults :
    (after .a [rd 0x02C]).faulted = false ∧
    [HostAccess.read 0 4, .read 0x02C 4, .read 0x0FC 4, .read 0x180 4, .read 0x1FC 4, .read 0x230 4, .read 0xFFFFFFFC 4,
      .read 5 4, .read 4 2, .write 4 4 0, .write 0 1 0].all illegalHostAccess = true ∧
    [HostAccess.read 0x028 4, .read 0x100 4, .read 0x17C 4, .read 0x200 4, .read 0x22C 4, .write 0 4 0].any illegalHostAccess
      = false := by decide

theorem witness_HostReadsRegisterMap :
    (filled .a 0x5A).busy = false ∧ (filled .a 0x5A).mseq = [] ∧ (filled .a 0x5A).rx 0 = some 0x5A ∧
    (filled .a 0x5A).rx 31 = some 0x5A ∧ (0x17C : Word) = BitVec.ofNat 32 (0x100 + 4 * 31) ∧
    (0x22C : Word) = BitVec.ofNat 32 (0x200 + 4 * (11 : Fin 12).val) ∧
    (tempered .a 1 2 3).rawT = some 1 ∧ (tempered .a 1 2 3).rawP = some 2 ∧ (tempered .a 1 2 3).fine = some 3 := by decide

/-- A block that holds a value in every result register. -/
theorem witness_HostReadsRegisterMap_results :
    let s := { tempered .a 1 2 3 with rxdata := some 4, rx16 := some 5, tOut := some 6, pOut := some 7, inputs := [rd 0x020] }
    s.busy = false ∧ s.mseq = [] ∧ s.inputs = .access (.read 0x020 4) :: [] ∧ s.rxdata = some 4 ∧ s.rx16 = some 5 ∧
    s.tOut = some 6 ∧ s.pOut = some 7 := ⟨rfl, rfl, rfl, rfl, rfl, rfl, rfl⟩

/-- Registers that are ⊥ after reset. -/
theorem witness_HostReadsRegisterMap_unwritten :
    let s := after .a [rd 0x17C]
    s.busy = false ∧ s.mseq = [] ∧ s.inputs = .access (.read (BitVec.ofNat 32 (0x100 + 4 * 31)) 4) :: [] ∧ s.rx 31 = none ∧
    s.rxdata = none ∧ s.rx16 = none ∧ s.rawT = none ∧ s.rawP = none ∧ s.fine = none ∧ s.tOut = none ∧ s.pOut = none := by
  decide

theorem witness_HostReadsWhileBusy :
    (waiting [rd 0x17C]).busy = true ∧ (waiting [rd 0x17C]).pend ≠ none ∧
    (waiting [rd 0x17C]).inputs = .access (.read (BitVec.ofNat 32 (0x100 + 4 * 31)) 4) :: [] := by decide

/-- Registers that read as themselves, and a busy block whose engine has a move to make. -/
theorem witness_HostReadsWhileBusy_moving :
    let s := { waiting [rd 0x22C] with pend := none }
    s.busy = true ∧ s.pend = none ∧
    s.inputs = .access (.read (BitVec.ofNat 32 (0x200 + 4 * (11 : Fin 12).val)) 4) :: [] ∧
    (waiting [rd 0x024]).busy = true ∧ (waiting [rd 0x024]).pend ≠ none ∧
    (waiting [rd 0x024]).inputs = .access (.read 0x024 4) :: [] := by decide

/-- R71: FAULT_CMD and CAL read as themselves while BUSY = 1. -/
theorem test_read_while_busy :
    on (step (waiting [rd 0x024])) (fun t => t.hostData = some 0 ∧ t.busy) = true ∧
    on (step { waiting [rd 0x22C] with cal := calB }) (fun t => t.hostData = some 0x1770) = true := by decide

theorem witness_AcceptedCommandIsBusy :
    (after .a [.hold 0]).faulted = false ∧ (after .a [.hold 0]).busy = false ∧ (after .a [.hold 0]).inputs = .hold 0 :: [] ∧
    (Instr.rdcur 0x68 32).wf = true ∧ Instr.compAp.builtIn (after .a [.hold 0]).build.variant = true := by decide

/-- START, WRB, RDA, RDNK, STOP: a ready block in every phase, and a completion next. -/
theorem witness_TransportRules :
    (phase .idle (cn 1)).Ready ∧ (phase .started (cn 1)).Ready ∧ (phase .tx (cn 1)).Ready ∧ (phase .rx (cn 1)).Ready ∧
    (phase .rxend (cn 1)).Ready ∧ (phase .rxend (cn 1)).inputs = .complete true 0x55 :: [] ∧
    (phase .rxend (cn 1)).tstate = .rxend ∧ (31 : Byte).toNat < 32 ∧ 32 ≤ (32 : Byte).toNat := by decide

theorem witness_StartRule :
    (phase .idle (cn 1)).Ready ∧ (phase .idle (cn 1)).tstate = .idle ∧ (phase .idle (cn 1)).inputs = .complete true 0x55 :: [] :=
  by decide

theorem witness_WrbRule :
    (phase .started (cn 1)).Ready ∧ (phase .started (cn 1)).tstate = .started ∧
    (phase .started (cn 1)).inputs = .complete true 0x55 :: [] ∧ (0xFE : Byte).toNat % 2 = 0 ∧ (0xFF : Byte).toNat % 2 ≠ 0 := by
  decide

theorem witness_RdaRule :
    (phase .rx (cn 1)).Ready ∧ (phase .rx (cn 1)).tstate = .rx ∧ (phase .rx (cn 1)).inputs = .complete true 0x55 :: [] ∧
    (0 : Byte).toNat < 32 ∧ (31 : Byte).toNat < 32 := by decide

theorem witness_RdnkRule :
    (phase .tx (cn 1)).Ready ∧ (phase .tx (cn 1)).tstate ≠ .rx ∧ (phase .rx (cn 1)).Ready ∧ (phase .rx (cn 1)).tstate = .rx ∧
    32 ≤ (255 : Byte).toNat := by decide

theorem witness_StopRule :
    (phase .tx (cn 1)).Ready ∧ (phase .tx (cn 1)).tstate = .tx ∧ (phase .rx (cn 1)).Ready ∧ (phase .rx (cn 1)).tstate = .rx := by
  decide

theorem witness_WithheldCompletionHangs :
    (after .a []).Ready ∧ (after .a []).tstate = .idle ∧ (after .a []).inputs = [] ∧ (waiting []).pend ≠ none ∧
    (waiting []).inputs = [] := by decide

/-- A completion that comes at a later step. -/
theorem witness_WithheldCompletionHangs_late :
    (waiting (cn 1)).Inv ∧ (waiting (cn 1)).pend = some .start ∧ (waiting (cn 1)).mseq = .start :: [] ∧
    (waiting (cn 1)).inputs = .complete true 0x55 :: [] := ⟨waiting_inv _, rfl, rfl, rfl⟩

/-- RD1 with two answers there and the third to come. -/
theorem witness_WithheldCompletionHangs_resumed :
    (after .a (cn 2)).Ready ∧ (after .a (cn 2)).pend = none ∧ (after .a (cn 2)).inputs = answers ((List.range 2).map cs) ∧
    ∃ t, exec (.rd1 0x77 0xD0 0) (after .a (cn 2)) = .next t ∧ t.pend ≠ none :=
  ⟨by decide, rfl, rfl, _, rfl, by decide⟩

/-- V12 with the completion a step later: the event, the phase and DONE. -/
theorem test_late_completion : on (step (waiting (cn 1)))
    (fun t => t.trace = [.start] ∧ t.tstate = .started ∧ t.done ∧ t.pend = none ∧ t.cmd = none) = true := by decide

theorem witness_Rd1Rule :
    (after .a (cn 7)).Ready ∧ (after .a (cn 7)).tstate = .idle ∧
    (after .a (cn 7)).inputs = answers ((List.range 7).map cs) ++ [] ∧ (31 : Byte).toNat < 32 ∧ 32 ≤ (32 : Byte).toNat ∧
    (phase .tx (cn 7)).Ready ∧ (phase .tx (cn 7)).tstate ≠ .idle := by decide

theorem witness_Rd2Rule :
    (after .a (cn 8)).Ready ∧ (after .a (cn 8)).tstate = .idle ∧ engineTurn [] = some [] ∧
    (after .a (cn 8)).inputs = answers ((List.range 8).map cs) ++ [] ∧ (30 : Byte).toNat ≤ 30 ∧ 30 < (31 : Byte).toNat ∧
    (phase .rx (cn 8)).Ready ∧ (phase .rx (cn 8)).tstate ≠ .idle := by decide

theorem witness_RdburstRule :
    (after .a (cn 7)).Ready ∧ (after .a (cn 7)).inputs = answers ((List.range ((1 : Byte).toNat + 6)).map cs) ++ [] ∧
    (after .a (cn 38)).Ready ∧ (after .a (cn 38)).inputs = answers ((List.range ((32 : Byte).toNat + 6)).map cs) ++ [] ∧
    (after .a []).tstate = .idle ∧ (0 : Byte).toNat = 0 ∧ 32 < (33 : Byte).toNat := ⟨by decide, rfl, by decide, rfl, by decide⟩

theorem witness_Wr1Rule :
    (after .a (cn 5)).Ready ∧ (after .a (cn 5)).tstate = .idle ∧
    (after .a (cn 5)).inputs = answers ((List.range 5).map cs) ++ [] := by decide

theorem witness_SetptrRule :
    (after .a (cn 4)).Ready ∧ (after .a (cn 4)).tstate = .idle ∧
    (after .a (cn 4)).inputs = answers ((List.range 4).map cs) ++ [] := by decide

theorem witness_RdcurRule :
    (after .a (cn 4)).Ready ∧ (after .a (cn 4)).inputs = answers ((List.range ((1 : Byte).toNat + 3)).map cs) ++ [] ∧
    (after .a (cn 35)).Ready ∧ (after .a (cn 35)).inputs = answers ((List.range ((32 : Byte).toNat + 3)).map cs) ++ [] ∧
    (0 : Byte).toNat = 0 ∧ 32 < (33 : Byte).toNat := ⟨by decide, rfl, by decide, rfl, by decide⟩

/-- A composite of each kind, with as many answers as it has primitives. -/
theorem witness_CompositeEqualsItsPrimitives :
    primitives (.rd2 0x77 0xF6 30) ≠ [] ∧ (Instr.rd2 0x77 0xF6 30).wf = true ∧ (after .a (cn 8)).Ready ∧
    (after .a (cn 8)).tstate = .idle ∧ ((List.range 8).map cs).length = (primitives (.rd2 0x77 0xF6 30)).length ∧
    (after .a (cn 8)).inputs = answers ((List.range 8).map cs) ++ [] ∧ engineTurn [] = some [] ∧
    primitives (.rdburst 0x77 0 32) ≠ [] ∧ primitives (.wr1 0 0 0) ≠ [] ∧ primitives (.setptr 0 0) ≠ [] := by decide

theorem witness_CompositeTransactionCounts :
    primitives (.rdcur 0x68 1) ≠ [] ∧ (Instr.rdcur 0x68 1).wf = true ∧ (after .a (cn 4)).Ready ∧
    (after .a (cn 4)).tstate = .idle ∧ ((List.range 4).map cs).length = (primitives (.rdcur 0x68 1)).length ∧
    (after .a (cn 4)).inputs = answers ((List.range 4).map cs) ++ [] := by decide

theorem witness_LdcalARule :
    (filled .a 0x11).Ready ∧ (filled .a 0x11).build.variant = .a ∧ (filled .a 0x11).drvState = .uninit ∧
    (∀ j, j < 22 → (filled .a 0x11).rx j = some 0x11) ∧ (calibrated .a 0 0).Ready ∧ (calibrated .a 0 0).drvState ≠ .uninit ∧
    (after .a []).Ready ∧ (after .a []).drvState = .uninit ∧ ∃ j, j < 22 ∧ (after .a []).rx j = none :=
  ⟨by decide, rfl, rfl, by decide, by decide, by decide, by decide, rfl, 21, by decide, rfl⟩

theorem witness_PackRules :
    (filled .a 0x11).Ready ∧ (filled .a 0x11).build.variant = .a ∧ (filled .a 0x11).rx 0 = some 0x11 ∧
    (filled .a 0x11).rx 1 = some 0x11 ∧ (filled .a 0x11).rx 2 = some 0x11 ∧ (buffered .a [1]).Ready ∧
    (buffered .a [1]).rx 1 = none ∧ (buffered .a [1, 2]).Ready ∧ (buffered .a [1, 2]).rx 2 = none := by decide

theorem witness_CompAtRule :
    (after .a []).Ready ∧ (after .a []).calOk = false ∧ (calibrated .a 27898 0).Ready ∧ (calibrated .a 27898 0).calOk = true ∧
    (calibrated .a 27898 0).rawT = some 27898 ∧
    calcAT .wrap (27898 : Word).toInt calA[4].toNat calA[5].toNat calA[9].toInt calA[10].toInt = .ok (2400, 150) ∧
    ({ calibrated .a 0 0 with rawT := none }).Ready := by decide +kernel

/-- Operands in range and out of range for each formula (V1, V48, V8 and V49, V21). -/
theorem witness_OverflowModesAgree :
    (∀ v ∈ exactAT 27898 32757 23153 (-8711) 2868, -2147483648 ≤ v ∧ v ≤ 2147483647) ∧
    (∃ v ∈ exactAT 65535 65535 0 (-8711) 2868, 2147483647 < v) ∧
    (∀ v ∈ exactAP 23843 2400 408 (-72) (-14383) 32741 6190 4, -2147483648 ≤ v ∧ v ≤ 2147483647) ∧
    (∃ v ∈ exactAP 0 2400 408 (-72) (-14383) 32741 6190 4, 2147483647 < v) ∧
    (∀ v ∈ exactBT 519888 27504 26435 (-1000), -2147483648 ≤ v ∧ v ≤ 2147483647) ∧
    (∃ v ∈ exactBT 2147483647 0 32767 0, 2147483647 < v) ∧
    (∀ v ∈ exactBP 415148 128422 36477 (-10685) 3024 2855 140 (-7) 15500 (-14600) 6000,
      -9223372036854775808 ≤ v ∧ v ≤ 9223372036854775807) ∧
    (∃ v ∈ exactBP 0 2147483647 1 0 0 0 0 32767 0 0 0, 9223372036854775807 < v) := by decide +kernel

/-- The exact results of V1 and V2 hold the intermediate values the spec lists. -/
theorem test_exact_results :
    exactAT 27898 32757 23153 (-8711) 2868 = [4745, 155431965, 7611, -17840128, -2343, 2400, 2408] ∧
    57 ∈ exactAP 23843 2400 408 (-72) (-14383) 32741 6190 4 ∧
    74529 ∈ exactAP 23843 2400 408 (-72) (-14383) 32741 6190 4 ∧ 69964 ∈ exactAP 23843 2400 408 (-72) (-14383) 32741 6190 4 := by
  decide +kernel

/-- V46: a divisor of 0. -/
theorem witness_CompAtRule_fault :
    let s := { calibrated .a 23153 0 with cal := calA.set 10 0 }
    s.Ready ∧ s.calOk = true ∧ s.rawT = some 23153 ∧
    calcAT s.build.overflowMode (23153 : Word).toInt s.cal[4].toNat s.cal[5].toNat s.cal[9].toInt s.cal[10].toInt
      = .error .divideByZero := by decide

theorem witness_CompApRule :
    (tempered .a 0 23843 2400).Ready ∧ (tempered .a 0 23843 2400).calOk = true ∧ (tempered .a 0 23843 2400).fineValid = true ∧
    (tempered .a 0 23843 2400).rawP = some 23843 ∧ (tempered .a 0 23843 2400).fine = some 2400 ∧
    calcAP .wrap (23843 : Word).toInt (2400 : Word).toInt calA[0].toInt calA[1].toInt calA[2].toInt calA[3].toNat
      calA[6].toInt calA[7].toInt = .ok 69964 ∧
    (calibrated .a 0 0).calOk = true ∧ (calibrated .a 0 0).fineValid = false ∧ (after .a []).calOk = false ∧
    ({ tempered .a 0 0 0 with rawP := none }).Ready := by decide

/-- V54: B4 = 0. -/
theorem witness_CompApRule_fault :
    let s := { tempered .a 0 23843 2400 with cal := calA.set 3 0 }
    s.Ready ∧ s.calOk = true ∧ s.fineValid = true ∧ s.rawP = some 23843 ∧ s.fine = some 2400 ∧
    calcAP s.build.overflowMode (23843 : Word).toInt (2400 : Word).toInt s.cal[0].toInt s.cal[1].toInt s.cal[2].toInt
      s.cal[3].toNat s.cal[6].toInt s.cal[7].toInt = .error .divideByZero := by decide

theorem witness_InitARule :
    (after .a (cn 43)).Ready ∧ (after .a (cn 43)).build.variant = .a ∧ (after .a (cn 43)).tstate = .idle ∧
    engineTurn [] = some [] ∧ (after .a (cn 43)).drvState = .uninit ∧
    ((List.range 15).map cs).length = 1 + 7 * (after .a (cn 43)).build.nIdReads ∧
    (after .a (cn 43)).inputs = answers ((List.range 15).map cs ++ (List.range 28).map cs) ++ [] ∧
    (phase .rx []).Ready ∧ (phase .rx []).tstate ≠ .idle ∧ (calibrated .a 0 0).Ready ∧
    (calibrated .a 0 0).tstate = .idle ∧ (calibrated .a 0 0).drvState ≠ .uninit :=
  ⟨by decide, rfl, rfl, rfl, rfl, rfl, rfl, by decide⟩

/-- The answers of P2 to SAMPLE_A. -/
def csA (i : Nat) : Bool × Byte :=
  match i with
  | 11 => (true, 0x6C)
  | 12 => (true, 0xFA)
  | 25 => (true, 0x5D)
  | 26 => (true, 0x23)
  | _ => (true, 0)

theorem witness_SampleARule :
    let s := { calibrated .a 0 0 with inputs := answers ((List.range 35).map csA) ++ [] }
    s.Ready ∧ s.build.variant = .a ∧ s.calOk = true ∧ s.tstate = .idle ∧ engineTurn [] = some [] ∧
    calcAT s.build.overflowMode ((csA 11).2.toNat * 256 + (csA 12).2.toNat : Nat)
      s.cal[4].toNat s.cal[5].toNat s.cal[9].toInt s.cal[10].toInt = .ok (2400, 150) ∧
    calcAP s.build.overflowMode ((csA 25).2.toNat * 256 + (csA 26).2.toNat : Nat) (BitVec.ofInt 32 2400).toInt
      s.cal[0].toInt s.cal[1].toInt s.cal[2].toInt s.cal[3].toNat s.cal[6].toInt s.cal[7].toInt = .ok 69964 := by decide +kernel

/-- TSTATE other than IDLE, whatever CAL_OK. -/
theorem witness_SampleARule_protocol :
    (phase .tx []).Ready ∧ (phase .tx []).build.variant = .a ∧ (phase .tx []).calOk = false ∧ (phase .tx []).tstate ≠ .idle ∧
    ({ calibrated .a 0 0 with tstate := .rxend }).Ready ∧ ({ calibrated .a 0 0 with tstate := .rxend }).calOk = true := by decide

/-- V80: AC4 = 0. -/
theorem witness_SampleAFaultIsPrecise :
    let s := { calibrated .a 0 0 with cal := calA.set 3 0, inputs := answers ((List.range 35).map csA) ++ [] }
    s.Ready ∧ s.build.variant = .a ∧ s.calOk = true ∧ s.tstate = .idle ∧ engineTurn [] = some [] ∧
    calcAT s.build.overflowMode ((csA 11).2.toNat * 256 + (csA 12).2.toNat : Nat)
      s.cal[4].toNat s.cal[5].toNat s.cal[9].toInt s.cal[10].toInt = .ok (2400, 150) ∧
    calcAP s.build.overflowMode ((csA 25).2.toNat * 256 + (csA 26).2.toNat : Nat) (BitVec.ofInt 32 2400).toInt
      s.cal[0].toInt s.cal[1].toInt s.cal[2].toInt s.cal[3].toNat s.cal[6].toInt s.cal[7].toInt = .error .divideByZero := by
  decide +kernel

/-- V46 inside SAMPLE_A: MD = 0 and UT = AC6 = 23153. -/
def csZero (i : Nat) : Bool × Byte :=
  match i with
  | 11 => (true, 0x5A)
  | 12 => (true, 0x71)
  | _ => (true, 0)

theorem witness_SampleAFaultIsPrecise_temperature :
    let s := { calibrated .a 0 0 with cal := calA.set 10 0, inputs := answers ((List.range 14).map csZero) ++ [] }
    s.Ready ∧ s.build.variant = .a ∧ s.calOk = true ∧ s.tstate = .idle ∧ engineTurn [] = some [] ∧
    calcAT s.build.overflowMode ((csZero 11).2.toNat * 256 + (csZero 12).2.toNat : Nat)
      s.cal[4].toNat s.cal[5].toNat s.cal[9].toInt s.cal[10].toInt = .error .divideByZero := by decide

theorem witness_LdcalBRule :
    (filled .b 0x11).Ready ∧ (filled .b 0x11).build.variant = .b ∧ (filled .b 0x11).drvState = .uninit ∧
    (∀ j, j < 24 → (filled .b 0x11).rx j = some 0x11) ∧ (calibrated .b 0 0).Ready ∧ (calibrated .b 0 0).drvState ≠ .uninit ∧
    (after .b []).Ready ∧ (after .b []).drvState = .uninit ∧ ∃ j, j < 24 ∧ (after .b []).rx j = none :=
  ⟨by decide, rfl, rfl, by decide, by decide, by decide, by decide, rfl, 23, by decide, rfl⟩

theorem witness_UnpackBRule :
    (filled .b 0x11).Ready ∧ (filled .b 0x11).build.variant = .b ∧ (∀ j, j < 6 → (filled .b 0x11).rx j = some 0x11) ∧
    (buffered .b [1, 2, 3, 4, 5]).Ready ∧ ∃ j, j < 6 ∧ (buffered .b [1, 2, 3, 4, 5]).rx j = none :=
  ⟨by decide, rfl, by decide, by decide, 5, by decide, rfl⟩

theorem witness_CompBtRule :
    (after .b []).Ready ∧ (after .b []).calOk = false ∧ (calibrated .b 519888 0).Ready ∧ (calibrated .b 519888 0).calOk = true ∧
    (calibrated .b 519888 0).rawT = some 519888 ∧ ({ calibrated .b 0 0 with rawT := none }).Ready ∧
    calcBT .wrap (519888 : Word).toInt calB[0].toNat calB[1].toInt calB[2].toInt = .ok (128422, 2508) := by decide +kernel

/-- A raw sample past 20 bits overflows under `fault`. -/
theorem witness_CompBtRule_fault :
    let s := { calibrated .b 0x7FFFFFFF 0 with build := { bld .b with overflowMode := .fault } }
    s.Ready ∧ s.calOk = true ∧ s.rawT = some 0x7FFFFFFF ∧
    calcBT s.build.overflowMode (0x7FFFFFFF : Word).toInt s.cal[0].toNat s.cal[1].toInt s.cal[2].toInt = .error .overflow := by
  decide

theorem witness_CompBpRule :
    (tempered .b 0 415148 128422).Ready ∧ (tempered .b 0 415148 128422).calOk = true ∧
    (tempered .b 0 415148 128422).fineValid = true ∧ (tempered .b 0 415148 128422).rawP = some 415148 ∧
    (tempered .b 0 415148 128422).fine = some 128422 ∧ (calibrated .b 0 0).calOk = true ∧
    (calibrated .b 0 0).fineValid = false ∧ (after .b []).calOk = false ∧ ({ tempered .b 0 0 0 with rawP := none }).Ready ∧
    calcBP .wrap (415148 : Word).toNat (128422 : Word).toInt calB[3].toNat calB[4].toInt calB[5].toInt calB[6].toInt
      calB[7].toInt calB[8].toInt calB[9].toInt calB[10].toInt calB[11].toInt = .ok 25767233 := by decide

/-- A fine temperature at the end of its range overflows 64 bits under `fault`. -/
theorem witness_CompBpRule_fault :
    let s := { tempered .b 0 0 0x7FFFFFFF with
      build := { bld .b with overflowMode := .fault }, cal := calB.set 8 0x7FFF }
    s.Ready ∧ s.calOk = true ∧ s.fineValid = true ∧ s.rawP = some 0 ∧ s.fine = some 0x7FFFFFFF ∧
    calcBP s.build.overflowMode (0 : Word).toNat (0x7FFFFFFF : Word).toInt s.cal[3].toNat s.cal[4].toInt s.cal[5].toInt
      s.cal[6].toInt s.cal[7].toInt s.cal[8].toInt s.cal[9].toInt s.cal[10].toInt s.cal[11].toInt = .error .overflow := by decide

theorem witness_InitBRule :
    (after .b (cn 107)).Ready ∧ (after .b (cn 107)).build.variant = .b ∧ (after .b (cn 107)).tstate = .idle ∧
    engineTurn [] = some [] ∧ (after .b (cn 107)).drvState = .uninit ∧
    (after .b (cn 107)).inputs = answers ((List.range 107).map cs) ++ [] ∧ (calibrated .b 0 0).Ready ∧
    (calibrated .b 0 0).tstate = .idle ∧ (calibrated .b 0 0).drvState ≠ .uninit ∧
    ({ after .b [] with tstate := .tx }).Ready ∧ ({ after .b [] with tstate := .tx }).tstate ≠ .idle :=
  ⟨by decide, rfl, rfl, rfl, rfl, (List.append_nil _).symm, by decide⟩

/-- The answers of P3 to SAMPLE_B. -/
def csB (i : Nat) : Bool × Byte :=
  match i with
  | 5 => (true, 0x65)
  | 6 => (true, 0x5A)
  | 7 => (true, 0xC0)
  | 8 => (true, 0x7E)
  | 9 => (true, 0xED)
  | _ => (true, 0)

theorem witness_SampleBRule :
    let s := { calibrated .b 0 0 with inputs := answers ((List.range 12).map csB) ++ [] }
    s.Ready ∧ s.build.variant = .b ∧ s.calOk = true ∧ s.tstate = .idle ∧ engineTurn [] = some [] ∧
    calcBT s.build.overflowMode ((csB 8).2.toNat * 2 ^ 12 + (csB 9).2.toNat * 2 ^ 4 + (csB 10).2.toNat / 2 ^ 4 : Nat)
      s.cal[0].toNat s.cal[1].toInt s.cal[2].toInt = .ok (128422, 2508) ∧
    calcBP s.build.overflowMode ((csB 5).2.toNat * 2 ^ 12 + (csB 6).2.toNat * 2 ^ 4 + (csB 7).2.toNat / 2 ^ 4 : Nat)
      (BitVec.ofInt 32 128422).toInt s.cal[3].toNat s.cal[4].toInt s.cal[5].toInt s.cal[6].toInt s.cal[7].toInt s.cal[8].toInt
      s.cal[9].toInt s.cal[10].toInt s.cal[11].toInt = .ok 25767233 := by decide +kernel

/-- The answers of P3 to SAMPLE_B with a raw pressure of 0. -/
def csBlow (i : Nat) : Bool × Byte :=
  match i with
  | 8 => (true, 0x7E)
  | 9 => (true, 0xED)
  | _ => (true, 0)

/-- Overflow in SAMPLE_B's COMP_BP: dig_P4 at the end of its range. -/
theorem witness_SampleBRule_pressure_fault :
    let s := { calibrated .b 0 0 with
      build := { bld .b with overflowMode := .fault }, cal := calB.set 6 0x8000
      inputs := answers ((List.range 12).map csBlow) ++ [] }
    s.Ready ∧ s.build.variant = .b ∧ s.calOk = true ∧ s.tstate = .idle ∧
    calcBT s.build.overflowMode ((csBlow 8).2.toNat * 2 ^ 12 + (csBlow 9).2.toNat * 2 ^ 4 + (csBlow 10).2.toNat / 2 ^ 4 : Nat)
      s.cal[0].toNat s.cal[1].toInt s.cal[2].toInt = .ok (128422, 2508) ∧
    calcBP s.build.overflowMode ((csBlow 5).2.toNat * 2 ^ 12 + (csBlow 6).2.toNat * 2 ^ 4 + (csBlow 7).2.toNat / 2 ^ 4 : Nat)
      (BitVec.ofInt 32 128422).toInt s.cal[3].toNat s.cal[4].toInt s.cal[5].toInt s.cal[6].toInt s.cal[7].toInt s.cal[8].toInt
      s.cal[9].toInt s.cal[10].toInt s.cal[11].toInt = .error .overflow := by decide +kernel

/-- Every byte of the answers is 0xFF. -/
def csOnes (_ : Nat) : Bool × Byte := (true, 0xFF)

/-- Overflow in SAMPLE_B's COMP_BT: the largest raw temperature and dig_T2. -/
theorem witness_SampleBRule_temperature_fault :
    let s := { calibrated .b 0 0 with
      build := { bld .b with overflowMode := .fault }, cal := #v[0, 0x7FFF, 0, 0, 0, 0, 0, 0, 0, 0, 0, 0]
      inputs := answers ((List.range 12).map csOnes) ++ [] }
    s.Ready ∧ s.build.variant = .b ∧ s.calOk = true ∧ s.tstate = .idle ∧
    calcBT s.build.overflowMode ((csOnes 8).2.toNat * 2 ^ 12 + (csOnes 9).2.toNat * 2 ^ 4 + (csOnes 10).2.toNat / 2 ^ 4 : Nat)
      s.cal[0].toNat s.cal[1].toInt s.cal[2].toInt = .error .overflow := by decide +kernel

theorem witness_SampleBRule_protocol :
    ({ after .b [] with tstate := .tx }).Ready ∧ ({ after .b [] with tstate := .tx }).build.variant = .b ∧
    ({ after .b [] with tstate := .tx }).calOk = false ∧ ({ after .b [] with tstate := .tx }).tstate ≠ .idle := by decide

theorem witness_SampleWithoutCalibration :
    (after .a []).Ready ∧ (after .a []).calOk = false ∧ (after .a []).tstate = .idle ∧ (after .a []).build.variant = .a ∧
    (after .b []).Ready ∧ (after .b []).build.variant = .b ∧ (phase .rx []).Ready ∧ (phase .rx []).calOk = false ∧
    (phase .rx []).tstate ≠ .idle := by decide

theorem witness_CalibrationIsImmutable :
    (calibrated .a 0 0).drvState ≠ .uninit ∧ (∀ more, (calibrated .a 0 0).inputs ≠ .reset :: more) ∧
    ∃ t, step (calibrated .a 0 0) = .next t := ⟨by decide, fun _ h => (by cases h), _, rfl⟩

theorem witness_BusCommandFrame :
    (Instr.rdcur 0x68 1).variant? = none ∧ ∃ t, exec (.rdcur 0x68 1) (after .a (cn 4)) = .next t := ⟨rfl, _, rfl⟩

theorem witness_DatapathCommandFrame :
    Instr.compBp ∈ [Instr.ldcalA, .packAt, .packAp, .compAt, .compAp, .ldcalB, .unpackB, .compBt, .compBp] ∧
    ∃ t, exec .compBp (tempered .b 0 415148 128422) = .next t := ⟨by decide, _, rfl⟩

theorem witness_DriverCommandFrame :
    (∃ t, exec (.initA 0x77) (after .a (cn 43)) = .next t) ∧ ∃ t, exec (.sampleB 0x76) (after .b []) = .next t :=
  ⟨⟨_, rfl⟩, _, rfl⟩

/-- An acknowledged and a refused byte. -/
theorem witness_AcknowledgeBitsChangeNothing :
    (phase .tx [wr 0x55000002, .complete true 0]).eraseAcks = (phase .tx [wr 0x55000002, .complete false 0]).eraseAcks ∧
    phase .tx [wr 0x55000002, .complete true 0] ≠ phase .tx [wr 0x55000002, .complete false 0] ∧
    (∃ t, step (phase .tx [wr 0x55000002, .complete true 0]) = .next t) ∧
    ∃ t, step (phase .tx [wr 0x55000002, .complete false 0]) = .next t := ⟨rfl, by decide, ⟨_, rfl⟩, _, rfl⟩

theorem witness_LegalTracesAreBalanced :
    tracePhase .idle [.start, .write 0xEE true, .write 0xD0 true, .repStart, .write 0xEF true, .read 0x55 false, .stop]
      = some .idle ∧ tracePhase .idle [.delay 5, .start, .write 0xEE true] = some .tx ∧
    (waiting []).Inv := ⟨by decide, by decide, waiting_inv _⟩

end Sys2Proof.Tests
end

section
/-! PROOFS. The two overflow modes of R11: one signed operation, a sequence of them (`ExactOn`), the four formulas. -/

namespace Sys2Proof.Proofs.Overflow

open Sys2Proof Sys2Proof.Machine

/-! ### One signed operation (R10, R11) -/

theorem inRangeS_iff (w : Nat) (v : Int) : inRangeS w v = true ↔ -(2 ^ (w - 1)) ≤ v ∧ v < 2 ^ (w - 1) := by
  simp [inRangeS]

theorem inRangeS_32_iff (v : Int) : inRangeS 32 v = true ↔ fits32 v := by
  rw [inRangeS_iff, fits32]; omega

theorem inRangeS_64_iff (v : Int) : inRangeS 64 v = true ↔ fits64 v := by
  rw [inRangeS_iff, fits64]; omega

theorem reduceS_of_inRangeS {w : Nat} {v : Int} (h : inRangeS w v = true) (m : OverflowMode) :
    reduceS m w v = .ok v := by
  simp [reduceS, h]

theorem reduceS_fault_of_not_inRangeS {w : Nat} {v : Int} (h : ¬ inRangeS w v = true) :
    reduceS .fault w v = .error .overflow := by
  simp [reduceS, h]

theorem wrapS_of_inRangeS {w : Nat} (hw : 0 < w) {v : Int} (h : inRangeS w v = true) : wrapS w v = v := by
  obtain ⟨hlo, hhi⟩ := (inRangeS_iff w v).1 h
  have hpow : (2 : Int) * 2 ^ (w - 1) = 2 ^ w := mul_pow_sub_one hw.ne' 2
  exact Int.bmod_eq_of_le_mul_two (by push_cast; omega) (by push_cast; omega)

theorem inRangeS_wrapS {w : Nat} (hw : 0 < w) (v : Int) : inRangeS w (wrapS w v) = true := by
  have hpow : (2 : Int) * 2 ^ (w - 1) = 2 ^ w := mul_pow_sub_one hw.ne' 2
  have hlo := Int.le_bmod (x := v) (m := 2 ^ w) (by positivity)
  have hhi := Int.bmod_lt (x := v) (m := 2 ^ w) (by positivity)
  push_cast at hlo hhi
  rw [inRangeS_iff, wrapS]
  omega

theorem dvd_sub_wrapS (w : Nat) (v : Int) : 2 ^ w ∣ v - wrapS w v := by
  simpa [wrapS] using Int.dvd_self_sub_bmod (x := v) (m := 2 ^ w)

/-- Under `wrap` an operation of a positive width always answers, with the value in range congruent to the exact result. -/
theorem reduceS_wrap {w : Nat} (hw : 0 < w) (v : Int) : reduceS .wrap w v = .ok (wrapS w v) := by
  by_cases h : inRangeS w v = true
  · rw [reduceS_of_inRangeS h, wrapS_of_inRangeS hw h]
  · simp [reduceS, h]

theorem reduceS_wrap_congruent {w : Nat} (hw : 0 < w) (v : Int) :
    ∃ r, reduceS .wrap w v = .ok r ∧ inRangeS w r = true ∧ 2 ^ w ∣ v - r :=
  ⟨_, reduceS_wrap hw v, inRangeS_wrapS hw v, dvd_sub_wrapS w v⟩

theorem wrapS_32_of_unsigned {v : Int} (h0 : 0 ≤ v) (h1 : v < 2 ^ 32) :
    wrapS 32 v = if v < 2 ^ 31 then v else v - 2 ^ 32 := by
  have hmod : v % 4294967296 = v := Int.emod_eq_of_lt h0 h1
  simp [wrapS, Int.bmod_def, hmod]

/-- A shift by an integer numeral, as the lists of exact results write it, is the shift by a natural number of `asr` (R12). -/
theorem shiftRight_ofNat (v : Int) (k : Nat) :
    v >>> no_index (OfNat.ofNat k : Int) = v >>> (OfNat.ofNat k : Nat) :=
  Int.shiftRight_natCast_right v k

/-! ### Under `wrap` every operation answers -/

section
variable {w : Nat} (hw : 0 < w) (a b : Int)
include hw

@[simp] theorem addS_wrap : addS .wrap w a b = .ok (wrapS w (a + b)) := reduceS_wrap hw _
@[simp] theorem subS_wrap : subS .wrap w a b = .ok (wrapS w (a - b)) := reduceS_wrap hw _
@[simp] theorem mulS_wrap : mulS .wrap w a b = .ok (wrapS w (a * b)) := reduceS_wrap hw _
@[simp] theorem shlS_wrap (k : Nat) : shlS .wrap w a k = .ok (wrapS w (a * 2 ^ k)) := reduceS_wrap hw _
@[simp] theorem tdivS_wrap : tdivS .wrap w a b = .ok (wrapS w (a.tdiv b)) := reduceS_wrap hw _

end

@[simp] theorem ok_bind {ε α β : Type} (a : α) (k : α → Except ε β) : (Except.ok a >>= k) = k a := rfl

@[simp] theorem error_bind {ε α β : Type} (e : ε) (k : α → Except ε β) : (Except.error e >>= k) = .error e := rfl

theorem calcAPb3_wrap (b6 ac1 ac2 b2 : Int) : ∃ r, calcAPb3 .wrap b6 ac1 ac2 b2 = .ok r := by
  simp [calcAPb3]

theorem calcAPb4_wrap (b6 ac3 ac4 b1 : Int) : ∃ r, calcAPb4 .wrap b6 ac3 ac4 b1 = .ok r := by
  simp [calcAPb4]

theorem calcAPfinal_wrap (p : Int) : ∃ r, calcAPfinal .wrap p = .ok r := by
  simp [calcAPfinal]

theorem calcBPvar2_wrap (v p4 p5 p6 : Int) : ∃ r, calcBPvar2 .wrap v p4 p5 p6 = .ok r := by
  simp [calcBPvar2]

theorem calcBPden_wrap (v p1 p2 p3 : Int) : ∃ r, calcBPden .wrap v p1 p2 p3 = .ok r := by
  simp [calcBPden]

theorem calcBPfinal_wrap (adcP var2 den p7 p8 p9 : Int) : ∃ r, calcBPfinal .wrap adcP var2 den p7 p8 p9 = .ok r := by
  simp [calcBPfinal]

theorem calcAT_wrap_error {ut ac5 ac6 mc md : Int} {c : FaultCode} (h : calcAT .wrap ut ac5 ac6 mc md = .error c) :
    c = .divideByZero := by
  simp only [calcAT, Nat.ofNat_pos, subS_wrap, mulS_wrap, addS_wrap, shlS_wrap, tdivS_wrap, ok_bind] at h
  split at h
  · exact (Except.error.inj h).symm
  · cases h

theorem calcAP_wrap_error {up b5 ac1 ac2 ac3 ac4 b1 b2 : Int} {c : FaultCode}
    (h : calcAP .wrap up b5 ac1 ac2 ac3 ac4 b1 b2 = .error c) : c = .divideByZero := by
  obtain ⟨b3, hb3⟩ := calcAPb3_wrap (wrapS 32 (b5 - 4000)) ac1 ac2 b2
  obtain ⟨b4, hb4⟩ := calcAPb4_wrap (wrapS 32 (b5 - 4000)) ac3 ac4 b1
  obtain ⟨p, hp⟩ := calcAPfinal_wrap (calcAPquotient (calcAPb7 up b3) b4)
  simp only [calcAP, Nat.ofNat_pos, subS_wrap, ok_bind, hb3, hb4, hp] at h
  split at h
  · exact (Except.error.inj h).symm
  · cases h

theorem calcBT_wrap (adcT t1 t2 t3 : Int) : ∃ r, calcBT .wrap adcT t1 t2 t3 = .ok r := by
  simp [calcBT]

theorem calcBP_wrap (adcP f p1 p2 p3 p4 p5 p6 p7 p8 p9 : Int) :
    ∃ r, calcBP .wrap adcP f p1 p2 p3 p4 p5 p6 p7 p8 p9 = .ok r := by
  obtain ⟨var2, hvar2⟩ := calcBPvar2_wrap (wrapS 64 (f - 128000)) p4 p5 p6
  obtain ⟨den, hden⟩ := calcBPden_wrap (wrapS 64 (f - 128000)) p1 p2 p3
  obtain ⟨p, hp⟩ := calcBPfinal_wrap adcP var2 den p7 p8 p9
  simp only [calcBP, Nat.ofNat_pos, subS_wrap, ok_bind, hvar2, hden, hp]
  split <;> simp

/-! ### A sequence of operations -/

/-- `f` checks the exact results `L`: where all of them are in range both modes end in `o`, and where one is not, `fault` ends
in Overflow. -/
def ExactOn {α : Type} (w : Nat) (L : List Int) (f : OverflowMode → Except FaultCode α) (o : Except FaultCode α) : Prop :=
  ((∀ v ∈ L, inRangeS w v = true) → ∀ m, f m = o) ∧ ((∃ v ∈ L, ¬ inRangeS w v = true) → f .fault = .error .overflow)

namespace ExactOn

variable {α β : Type} {w : Nat} {L L' : List Int} {f : OverflowMode → Except FaultCode α} {o : Except FaultCode α}

theorem done : ExactOn w [] (fun _ => o) o := ⟨fun _ _ => rfl, by simp⟩

/-- A list may be reordered and repeat its results. -/
theorem congr (h : ExactOn w L f o) (hL : ∀ v, v ∈ L ↔ v ∈ L') : ExactOn w L' f o := by
  simpa only [ExactOn, hL] using h

theorem bind {a : α} {k : OverflowMode → α → Except FaultCode β} {o : Except FaultCode β}
    (hf : ExactOn w L f (.ok a)) (hk : ExactOn w L' (fun m => k m a) o) :
    ExactOn w (L ++ L') (fun m => f m >>= k m) o := by
  obtain ⟨hok, herr⟩ := hf
  refine ⟨fun h m => ?_, fun h => ?_⟩
  · have ha : f m = .ok a := hok (fun v hv => h v (List.mem_append_left _ hv)) m
    simp only [ha, ok_bind]
    exact hk.1 (fun v hv => h v (List.mem_append_right _ hv)) m
  · by_cases hL : ∃ v ∈ L, ¬ inRangeS w v = true
    · simp only [herr hL, error_bind]
    · have ha : f .fault = .ok a := hok (by simpa using hL) .fault
      simp only [ha, ok_bind]
      obtain ⟨v, hv, hout⟩ := h
      exact hk.2 ⟨v, (List.mem_append.1 hv).resolve_left fun hv => hL ⟨v, hv, hout⟩, hout⟩

theorem reduce (v : Int) : ExactOn w [v] (fun m => reduceS m w v) (.ok v) :=
  ⟨fun h m => reduceS_of_inRangeS (h v (List.mem_singleton_self v)) m,
    fun ⟨u, hu, h⟩ => by rw [← List.mem_singleton.1 hu]; exact reduceS_fault_of_not_inRangeS h⟩

/-- One signed operation, then the rest at its exact result. -/
theorem op {v : Int} {k : OverflowMode → Int → Except FaultCode α} (hk : ExactOn w L (fun m => k m v) o) :
    ExactOn w (v :: L) (fun m => reduceS m w v >>= k m) o :=
  (reduce v).bind hk

/-- An operation on constants that is always in range adds no result. -/
theorem constant {v : Int} {k : OverflowMode → Int → Except FaultCode α} (hv : inRangeS w v = true)
    (hk : ExactOn w L (fun m => k m v) o) : ExactOn w L (fun m => reduceS m w v >>= k m) o := by
  simpa [reduceS_of_inRangeS hv] using hk

/-- The zero test of a formula: nothing is checked after it where it ends the formula. -/
theorem stop {c : Prop} [Decidable c] {e : Except FaultCode α} (h : ¬ c → ExactOn w L f o) :
    ExactOn w (if c then [] else L) (fun m => if c then e else f m) (if c then e else o) := by
  by_cases hc : c
  · simpa [hc] using done
  · simpa [hc] using h hc

/-- What `ExactOn` says of the two modes, for a range spelled as a statement spells it. -/
theorem modes (h : ExactOn w L f o) {fits : Int → Prop} (hfits : ∀ v, inRangeS w v = true ↔ fits v) :
    ((∃ v ∈ L, ¬ fits v) → f .fault = .error .overflow) ∧ ((∀ v ∈ L, fits v) → f .fault = f .wrap) := by
  obtain ⟨hok, herr⟩ := h
  simp only [hfits] at hok herr
  exact ⟨herr, fun hL => (hok hL .fault).trans (hok hL .wrap).symm⟩

end ExactOn

/-! ### The four formulas, each on its list of exact results

A formula cut into parts computes some results twice, and shifts by a constant 0: its parts' lists then hold the same members
as the whole list. -/

theorem calcAT_exactOn (ut ac5 ac6 mc md : Int) :
    ∃ o, ExactOn 32 (exactAT ut ac5 ac6 mc md) (fun m => calcAT m ut ac5 ac6 mc md) o := by
  simp only [calcAT, exactAT, asr, shiftRight_ofNat]
  exact ⟨_, .op <| .op <| .op <| .stop fun _ => .op <| .op <| .op <| .op .done⟩

theorem calcBT_exactOn (adcT t1 t2 t3 : Int) :
    ∃ o, ExactOn 32 (exactBT adcT t1 t2 t3) (fun m => calcBT m adcT t1 t2 t3) o := by
  simp only [calcBT, exactBT, asr, shiftRight_ofNat]
  exact ⟨_, .op <| .op <| .op <| .op <| .op <| .op <| .op <| .op <| .op .done⟩

theorem calcAPb3_exactOn (b6 ac1 ac2 b2 : Int) :
    let m1 := b2 * asr (b6 * b6) 12
    let x3 := asr m1 11 + asr (ac2 * b6) 11
    let sum := ac1 * 4 + x3
    ExactOn 32 [b6 * b6, m1, ac2 * b6, x3, ac1 * 4, sum, sum * 2 ^ Config.oss, sum * 2 ^ Config.oss + 2]
      (fun m => calcAPb3 m b6 ac1 ac2 b2) (.ok (asr (sum * 2 ^ Config.oss + 2) 2)) :=
  .op <| .op <| .op <| .op <| .op <| .op <| .op <| .op .done

theorem calcAPb4_exactOn (b6 ac3 ac4 b1 : Int) :
    let n2 := b1 * asr (b6 * b6) 12
    let y := asr (ac3 * b6) 13 + asr n2 16
    let biased := asr (y + 2) 2 + 32768
    ExactOn 32 [ac3 * b6, b6 * b6, n2, y, y + 2, biased]
      (fun m => calcAPb4 m b6 ac3 ac4 b1) (.ok (asr (ac4 * (biased % 2 ^ 32) % 2 ^ 32) 15)) := by
  simp only [calcAPb4, asr, wrapU, shiftRight_ofNat]
  exact .op <| .op <| .op <| .op <| .op <| .op .done

theorem calcAPfinal_exactOn (p : Int) :
    let h := asr p 8
    let z := asr (h * h * 3038) 16 + asr (-7357 * p) 16
    ExactOn 32 [h * h, h * h * 3038, -7357 * p, z, z + 3791, p + asr (z + 3791) 4]
      (fun m => calcAPfinal m p) (.ok (p + asr (z + 3791) 4)) :=
  .op <| .op <| .op <| .op <| .op <| .reduce _

theorem calcBPvar2_exactOn (v p4 p5 p6 : Int) :
    let a := v * v * p6 + v * p5 * 2 ^ 17
    ExactOn 64 [v * v, v * v * p6, v * p5, v * p5 * 2 ^ 17, a, p4 * 2 ^ 35, a + p4 * 2 ^ 35]
      (fun m => calcBPvar2 m v p4 p5 p6) (.ok (a + p4 * 2 ^ 35)) :=
  .op <| .op <| .op <| .op <| .op <| .op <| .reduce _

theorem calcBPden_exactOn (v p1 p2 p3 : Int) :
    let w := asr (v * v * p3) 8 + v * p2 * 2 ^ 12
    let n := (2 ^ 47 + w) * p1
    ExactOn 64 [v * v, v * v * p3, v * p2, v * p2 * 2 ^ 12, w, 2 ^ 47 + w, n]
      (fun m => calcBPden m v p1 p2 p3) (.ok (asr n 33)) :=
  .op <| .op <| .op <| .op <| .op <| .constant (v := 2 ^ 47) rfl <| .op <| .op .done

theorem calcBPfinal_exactOn (adcP var2 den p7 p8 p9 : Int) :
    let num := (1048576 - adcP) * 2 ^ 31 - var2
    let p := (num * 3125).tdiv den
    let h := asr p 13
    let sum := p + asr (p9 * h * h) 25
    let total := sum + asr (p8 * p) 19
    ExactOn 64 [1048576 - adcP, (1048576 - adcP) * 2 ^ 31, num, num * 3125, p, p9 * h, p9 * h * h, p8 * p, sum, total,
        p7 * 2 ^ 4, asr total 8 + p7 * 2 ^ 4]
      (fun m => calcBPfinal m adcP var2 den p7 p8 p9) (.ok (asr total 8 + p7 * 2 ^ 4)) :=
  .op <| .op <| .op <| .op <| .op <| .op <| .op <| .op <| .op <| .op <| .op <| .reduce _

/-- R167's quotient is unsigned, and p is its s32 reading. -/
theorem calcAPquotient_eq (b7 : Int) {b4 : Int} (h4 : 0 ≤ b4) :
    let q := if b7 < 2 ^ 31 then b7 * 2 % 2 ^ 32 / b4 else b7 / b4 * 2 % 2 ^ 32
    calcAPquotient b7 b4 = if q < 2 ^ 31 then q else q - 2 ^ 32 := by
  have hmod (v : Int) : 0 ≤ v % 2 ^ 32 ∧ v % 2 ^ 32 < 2 ^ 32 := by omega
  have hdiv : 0 ≤ b7 * 2 % 2 ^ 32 / b4 ∧ b7 * 2 % 2 ^ 32 / b4 < 2 ^ 32 :=
    ⟨Int.ediv_nonneg (hmod _).1 h4, (Int.ediv_le_self _ (hmod _).1).trans_lt (hmod _).2⟩
  by_cases h : b7 < 2 ^ 31
  · have hq : calcAPquotient b7 b4 = wrapS 32 (b7 * 2 % 2 ^ 32 / b4) := if_pos h
    simp only [if_pos h, hq, wrapS_32_of_unsigned hdiv.1 hdiv.2]
  · have hq : calcAPquotient b7 b4 = wrapS 32 (b7 / b4 * 2 % 2 ^ 32) := if_neg h
    simp only [if_neg h, hq, wrapS_32_of_unsigned (hmod _).1 (hmod _).2]

theorem calcAPb7_eq (up b3 : Int) : calcAPb7 up b3 = (up - b3) % 2 ^ 32 * 50000 % 2 ^ 32 := by
  simp [calcAPb7, wrapU, Config.oss]

theorem asr_emod_nonneg (v : Int) (k : Nat) : 0 ≤ asr (v % 2 ^ 32) k := by
  rw [asr, Int.shiftRight_eq_div_pow]
  exact Int.ediv_nonneg (Int.emod_nonneg _ (by decide)) (by positivity)

theorem calcAP_exactOn (up b5 ac1 ac2 ac3 ac4 b1 b2 : Int) :
    ∃ o, ExactOn 32 (exactAP up b5 ac1 ac2 ac3 ac4 b1 b2) (fun m => calcAP m up b5 ac1 ac2 ac3 ac4 b1 b2) o := by
  refine ⟨_, .congr (.op <| (calcAPb3_exactOn (b5 - 4000) ac1 ac2 b2).bind <|
    (calcAPb4_exactOn (b5 - 4000) ac3 ac4 b1).bind <| .stop fun _ => calcAPfinal_exactOn _) fun v => ?_⟩
  rw [calcAPquotient_eq _ (asr_emod_nonneg _ _), calcAPb7_eq]
  simp only [exactAP, asr, shiftRight_ofNat, Config.oss, pow_zero, mul_one, List.mem_append, List.mem_cons]
  tauto

theorem calcBP_exactOn (adcP f p1 p2 p3 p4 p5 p6 p7 p8 p9 : Int) :
    ∃ o, ExactOn 64 (exactBP adcP f p1 p2 p3 p4 p5 p6 p7 p8 p9)
      (fun m => calcBP m adcP f p1 p2 p3 p4 p5 p6 p7 p8 p9) o := by
  refine ⟨_, .congr (.op <| (calcBPvar2_exactOn (f - 128000) p4 p5 p6).bind <|
    (calcBPden_exactOn (f - 128000) p1 p2 p3).bind <| .stop fun _ => calcBPfinal_exactOn _ _ _ p7 p8 p9) fun v => ?_⟩
  simp only [exactBP, asr, shiftRight_ofNat, List.mem_append, List.mem_cons]
  tauto

/-! ### The statement -/

/-- One operation in a width, whose range a statement spells as `fits`. -/
theorem reduceS_modes {w : Nat} (hw : 0 < w) {fits : Int → Prop} (hfits : ∀ v, inRangeS w v = true ↔ fits v) (v : Int) :
    (fits v → ∀ m, reduceS m w v = .ok v) ∧
    (¬ fits v → reduceS .fault w v = .error .overflow ∧ ∃ r, reduceS .wrap w v = .ok r ∧ fits r ∧ 2 ^ w ∣ v - r) := by
  simp only [← hfits]
  exact ⟨reduceS_of_inRangeS, fun h => ⟨reduceS_fault_of_not_inRangeS h, reduceS_wrap_congruent hw v⟩⟩

/-- Settles O51: a formula is a sequence of operations checked on its list of exact results, and under `wrap` each answers. -/
theorem overflowModesAgree : Obligations.OverflowModesAgree := by
  unfold Obligations.OverflowModesAgree
  refine ⟨fun v => ?_, fun ut ac5 ac6 mc md => ?_, fun up b5 ac1 ac2 ac3 ac4 b1 b2 => ?_, fun adcT t1 t2 t3 => ?_,
    fun adcP f p1 p2 p3 p4 p5 p6 p7 p8 p9 => ?_⟩
  · obtain ⟨hin32, hout32⟩ := reduceS_modes (by decide) inRangeS_32_iff v
    obtain ⟨hin64, hout64⟩ := reduceS_modes (by decide) inRangeS_64_iff v
    exact ⟨hin32, hin64, hout32, hout64⟩
  · obtain ⟨_, h⟩ := calcAT_exactOn ut ac5 ac6 mc md
    obtain ⟨hover, hagree⟩ := h.modes inRangeS_32_iff
    exact ⟨hover, hagree, fun _ => calcAT_wrap_error⟩
  · obtain ⟨_, h⟩ := calcAP_exactOn up b5 ac1 ac2 ac3 ac4 b1 b2
    obtain ⟨hover, hagree⟩ := h.modes inRangeS_32_iff
    exact ⟨hover, hagree, fun _ => calcAP_wrap_error⟩
  · obtain ⟨_, h⟩ := calcBT_exactOn adcT t1 t2 t3
    obtain ⟨hover, hagree⟩ := h.modes inRangeS_32_iff
    exact ⟨hover, hagree, calcBT_wrap adcT t1 t2 t3⟩
  · obtain ⟨_, h⟩ := calcBP_exactOn adcP f p1 p2 p3 p4 p5 p6 p7 p8 p9
    obtain ⟨hover, hagree⟩ := h.modes inRangeS_64_iff
    exact ⟨hover, hagree, calcBP_wrap adcP f p1 p2 p3 p4 p5 p6 p7 p8 p9⟩

end Sys2Proof.Proofs.Overflow
end

section
/-! PROOFS. The steps each command expands to, said once for all commands (R90): which of them are transfers, which RXBUF
elements these use, and which other steps stand among them. -/

namespace Sys2Proof.Proofs.Steps

open Sys2Proof Sys2Proof.Machine

/-- The steps a command expands to (R90), in a build `b`, with the CAL_OK a SAMPLE finds. -/
def stepsOf (b : Build) (calOk : Bool) : Instr → List MStep
  | .start => [.start]
  | .wrb v => [.wrb v]
  | .rda k => [.rda k.toNat]
  | .rdnk k => [.rdnk k.toNat]
  | .stop => [.stop]
  | .rd1 a r o => .requireIdle :: seqRd1 a r o.toNat
  | .rd2 a r o => .requireIdle :: seqRd2 a r o.toNat
  | .rdburst a r n => .requireIdle :: seqBurst a r n.toNat
  | .wr1 a r v => .requireIdle :: seqWr1 a r v
  | .setptr a r => .requireIdle :: seqSetptr a r
  | .rdcur a n => .requireIdle :: seqRdcur a n.toNat
  | .ldcalA => [.ldcalA]
  | .packAt => [.packAt]
  | .packAp => [.packAp]
  | .compAt => [.compAt]
  | .compAp => [.compAp]
  | .initA a => seqInitA b a
  | .sampleA a => seqSampleA calOk a
  | .ldcalB => [.ldcalB]
  | .unpackB => [.unpackB]
  | .compBt => [.compBt]
  | .compBp => [.compBp]
  | .initB a => seqInitB b a
  | .sampleB a => seqSampleB calOk a

/-- Every command is the host's write of its word, which runs its steps (R90). -/
theorem exec_eq_command (i : Instr) (s : State) : exec i s = .next (command i (stepsOf s.build s.calOk i) s) := by
  cases i <;> rfl

theorem stepsOf_ne_nil (b : Build) (calOk : Bool) (i : Instr) : stepsOf b calOk i ≠ [] := by
  cases i <;> cases calOk <;> exact List.cons_ne_nil _ _

/-- A step that computes nothing but transfers bytes, waits or checks: it uses RXBUF from `lo` up to but not `hi`, and writes
RX16 only if `latch`. -/
def Transfers (latch : Bool) (lo hi : Nat) : MStep → Prop
  | .requireIdle | .requireUninit | .start | .wrb _ | .stop | .delay _ => True
  | .rda i | .rdnk i => lo ≤ i ∧ i < hi
  | .latchRx16 o => latch = true ∧ lo ≤ o ∧ o + 1 < hi
  | .ldcalA | .packAt | .packAp | .compAt | .compAp | .ldcalB | .unpackB | .compBt | .compBp | .setReady
  | .zeroOutputs => False

theorem Transfers.mono {latch latch' : Bool} {lo hi lo' hi' : Nat} {m : MStep} (h : Transfers latch lo hi m)
    (hlatch : latch = true → latch' = true) (hlo : lo' ≤ lo) (hhi : hi ≤ hi') : Transfers latch' lo' hi' m := by
  cases m
  case rda | rdnk => exact ⟨hlo.trans h.1, h.2.trans_le hhi⟩
  case latchRx16 =>
    obtain ⟨hl, hle, hlt⟩ := h
    exact ⟨hlatch hl, hlo.trans hle, hlt.trans_le hhi⟩
  all_goals exact h

theorem seqBytes_transfers : ∀ n o : Nat, ∀ m ∈ seqBytes o n, Transfers false o (o + n + 1) m
  | 0, o => by simp [seqBytes, Transfers]
  | n + 1, o => by
    refine List.forall_mem_cons.2 ⟨⟨le_rfl, by omega⟩, fun m hm => ?_⟩
    exact (seqBytes_transfers n (o + 1) m hm).mono id (by omega) (by omega)

/-! #### The sequences the composites are made of -/

section
variable (latch : Bool) (lo hi : Nat) (a : Addr7) (r : Byte)

/-- The openings of a transaction and the writes use no element of RXBUF (R131, R134). -/
theorem seqReadFrom_transfers : ∀ m ∈ seqReadFrom a r, Transfers latch lo hi m := by
  simp [seqReadFrom, seqPointer, Transfers]

theorem seqWr1_transfers (v : Byte) : ∀ m ∈ seqWr1 a r v, Transfers latch lo hi m := by
  simp [seqWr1, seqPointer, Transfers]

theorem seqSetptr_transfers : ∀ m ∈ seqSetptr a r, Transfers latch lo hi m := by
  simp [seqSetptr, seqPointer, Transfers]

theorem seqConfigB_transfers (b : Build) : ∀ m ∈ seqConfigB b a, Transfers latch lo hi m := by
  unfold seqConfigB
  cases b.bCfgOrder <;>
    exact List.forall_mem_append.2 ⟨seqWr1_transfers latch lo hi a _ _, seqWr1_transfers latch lo hi a _ _⟩

/-- A read of bytes o to o + n (R131 to R133). -/
theorem seqRead_transfers {o n : Nat} (hlo : lo ≤ o) (hhi : o + n < hi) :
    ∀ m ∈ seqReadFrom a r ++ seqBytes o n, Transfers latch lo hi m :=
  List.forall_mem_append.2 ⟨seqReadFrom_transfers latch lo hi a r,
    fun m hm => (seqBytes_transfers n o m hm).mono (by simp) hlo hhi⟩

theorem seqRd1_transfers {o : Nat} (hlo : lo ≤ o) (hhi : o < hi) : ∀ m ∈ seqRd1 a r o, Transfers latch lo hi m :=
  seqRead_transfers latch lo hi a r hlo hhi

theorem seqRd2_transfers {o : Nat} (hlo : lo ≤ o) (hhi : o + 1 < hi) : ∀ m ∈ seqRd2 a r o, Transfers true lo hi m :=
  List.forall_mem_append.2 ⟨seqRead_transfers true lo hi a r hlo hhi, by simp [Transfers, hlo, hhi]⟩

theorem seqBurst_transfers {n : Nat} (hn : 1 ≤ n) (hhi : n ≤ hi) : ∀ m ∈ seqBurst a r n, Transfers latch 0 hi m :=
  seqRead_transfers latch 0 hi a r le_rfl (by omega)

theorem seqRdcur_transfers {n : Nat} (hn : 1 ≤ n) (hhi : n ≤ hi) : ∀ m ∈ seqRdcur a n, Transfers latch 0 hi m :=
  List.forall_mem_append.2 ⟨by simp [Transfers],
    fun m hm => (seqBytes_transfers (n - 1) 0 m hm).mono (by simp) le_rfl (by omega)⟩

theorem seqIdReads_transfers (hhi : 0 < hi) : ∀ n, ∀ m ∈ seqIdReads a r n, Transfers latch 0 hi m
  | 0 => by simp [seqIdReads]
  | n + 1 => List.forall_mem_append.2 ⟨seqRd1_transfers latch 0 hi a r le_rfl hhi, seqIdReads_transfers hhi n⟩

theorem seqCalReadsB_transfers : ∀ n k : Nat, 2 * (k + n) ≤ hi → ∀ m ∈ seqCalReadsB a k n, Transfers true 0 hi m
  | 0, _ => by simp [seqCalReadsB]
  | n + 1, k => fun h => List.forall_mem_append.2 ⟨seqRd2_transfers 0 hi a _ (Nat.zero_le _) (by omega),
      seqCalReadsB_transfers n (k + 1) (by omega)⟩

end

/-! #### What stands in the steps of a command -/

/-- The elements of RXBUF a command's transfers use: from the first number up to but not the second (R81, R170, R171, R210,
R211). -/
def window : Instr → Nat × Nat
  | .rda k | .rdnk k => (k.toNat, k.toNat + 1)
  | .rd1 _ _ o => (o.toNat, o.toNat + 1)
  | .rd2 _ _ o => (o.toNat, o.toNat + 2)
  | .rdburst _ _ n | .rdcur _ n => (0, n.toNat)
  | .initA _ => (0, 22)
  | .initB _ => (0, 24)
  | .sampleA _ => (0, 3)
  | .sampleB _ => (0, 6)
  | .start | .wrb _ | .stop | .wr1 _ _ _ | .setptr _ _ => (0, 0)
  | .ldcalA | .packAt | .packAp | .compAt | .compAp | .ldcalB | .unpackB | .compBt | .compBp => (0, 0)

/-- The commands that contain an RD2 (R132, R171, R210). -/
def latches : Instr → Bool
  | .rd2 _ _ _ | .sampleA _ | .initB _ => true
  | _ => false

/-- The steps of a command that are no transfers. -/
def internals : Instr → List MStep
  | .ldcalA => [.ldcalA]
  | .packAt => [.packAt]
  | .packAp => [.packAp]
  | .compAt => [.compAt]
  | .compAp => [.compAp]
  | .ldcalB => [.ldcalB]
  | .unpackB => [.unpackB]
  | .compBt => [.compBt]
  | .compBp => [.compBp]
  | .initA _ => [.ldcalA, .setReady]
  | .initB _ => [.ldcalB, .setReady]
  | .sampleA _ => [.packAt, .compAt, .packAp, .compAp, .zeroOutputs]
  | .sampleB _ => [.unpackB, .compBt, .compBp, .zeroOutputs]
  | .start | .wrb _ | .rda _ | .rdnk _ | .stop => []
  | .rd1 _ _ _ | .rd2 _ _ _ | .rdburst _ _ _ | .wr1 _ _ _ | .setptr _ _ | .rdcur _ _ => []

/-- A step of command `i`: a transfer within the command's window, or one of its other steps. -/
def OwnStep (i : Instr) (m : MStep) : Prop :=
  Transfers (latches i) (window i).1 (window i).2 m ∨ m ∈ internals i

theorem seqInitA_own (b : Build) (a : Addr7) : ∀ m ∈ seqInitA b a, OwnStep (.initA a) m := by
  have hid : ∀ m ∈ seqIdReads a b.idRegA b.nIdReads, OwnStep (.initA a) m :=
    fun m hm => .inl (seqIdReads_transfers _ _ a _ (show 0 < 22 by decide) _ m hm)
  have hcal : ∀ m ∈ seqBurst a regCalA 22, OwnStep (.initA a) m :=
    fun m hm => .inl (seqBurst_transfers _ _ a _ (by decide) (show 22 ≤ 22 from le_rfl) m hm)
  simp only [seqInitA, List.forall_mem_append]
  exact ⟨⟨⟨by simp [OwnStep, Transfers], hid⟩, hcal⟩, by simp [OwnStep, internals]⟩

theorem seqSampleA_own (calOk : Bool) (a : Addr7) : ∀ m ∈ seqSampleA calOk a, OwnStep (.sampleA a) m := by
  have hwr : ∀ v, ∀ m ∈ seqWr1 a regCtrl v, OwnStep (.sampleA a) m := fun v m hm => .inl (seqWr1_transfers _ _ _ a _ v m hm)
  have hrd2 : ∀ m ∈ seqRd2 a regResultA 0, OwnStep (.sampleA a) m :=
    fun m hm => .inl (seqRd2_transfers _ _ a _ le_rfl (show 1 < 3 by decide) m hm)
  have hrd1 : ∀ m ∈ seqRd1 a regXlsbA 2, OwnStep (.sampleA a) m :=
    fun m hm => .inl (seqRd1_transfers _ _ _ a _ (Nat.zero_le _) (show 2 < 3 by decide) m hm)
  cases calOk
  · simp [seqSampleA, OwnStep, Transfers, internals]
  · simp only [seqSampleA, if_true, List.forall_mem_append, and_assoc]
    refine ⟨?_, hwr _, ?_, hrd2, ?_, hwr _, ?_, hrd2, hrd1, ?_⟩ <;> simp [OwnStep, Transfers, internals]

theorem seqInitB_own (b : Build) (a : Addr7) : ∀ m ∈ seqInitB b a, OwnStep (.initB a) m := by
  have hcfg : ∀ m ∈ seqConfigB b a, OwnStep (.initB a) m := fun m hm => .inl (seqConfigB_transfers _ _ _ a b m hm)
  have hcal : ∀ m ∈ seqCalReadsB a 0 12, OwnStep (.initB a) m :=
    fun m hm => .inl (seqCalReadsB_transfers _ a 12 0 (show 24 ≤ 24 from le_rfl) m hm)
  simp only [seqInitB, List.forall_mem_append]
  exact ⟨⟨⟨by simp [OwnStep, Transfers], hcfg⟩, hcal⟩, by simp [OwnStep, internals]⟩

theorem seqSampleB_own (calOk : Bool) (a : Addr7) : ∀ m ∈ seqSampleB calOk a, OwnStep (.sampleB a) m := by
  have hrd : ∀ m ∈ seqBurst a regDataB 6, OwnStep (.sampleB a) m :=
    fun m hm => .inl (seqBurst_transfers _ _ a _ (by decide) (show 6 ≤ 6 from le_rfl) m hm)
  cases calOk
  · simp [seqSampleB, OwnStep, Transfers, internals]
  · simp only [seqSampleB, if_true, List.forall_mem_append, and_assoc]
    refine ⟨?_, hrd, ?_⟩ <;> simp [OwnStep, Transfers, internals]

/-- The TSTATE check before a composite's transfers (R130). -/
theorem checked_own {i : Instr} {l : List MStep} (h : ∀ m ∈ l, Transfers (latches i) (window i).1 (window i).2 m) :
    ∀ m ∈ MStep.requireIdle :: l, OwnStep i m :=
  List.forall_mem_cons.2 ⟨.inl trivial, fun m hm => .inl (h m hm)⟩

/-- The steps of a command whose operands are in range are its own: the one inversion of `stepsOf`. -/
theorem stepsOf_own (b : Build) (calOk : Bool) {i : Instr} (hw : i.wf = true) :
    ∀ m ∈ stepsOf b calOk i, OwnStep i m := by
  cases i
  case rd1 a r o => exact checked_own (seqRd1_transfers _ _ _ a r le_rfl (Nat.lt_succ_self _))
  case rd2 a r o => exact checked_own (seqRd2_transfers _ _ a r le_rfl (Nat.lt_succ_self _))
  case rdburst a r n =>
    obtain ⟨hn, -⟩ : 1 ≤ n.toNat ∧ n.toNat ≤ Config.nmax := by simpa [Instr.wf] using hw
    exact checked_own (seqBurst_transfers _ _ a r hn le_rfl)
  case wr1 a r v => exact checked_own (seqWr1_transfers _ _ _ a r v)
  case setptr a r => exact checked_own (seqSetptr_transfers _ _ _ a r)
  case rdcur a n =>
    obtain ⟨hn, -⟩ : 1 ≤ n.toNat ∧ n.toNat ≤ Config.nmax := by simpa [Instr.wf] using hw
    exact checked_own (seqRdcur_transfers _ _ a hn le_rfl)
  case initA a => exact seqInitA_own b a
  case sampleA a => exact seqSampleA_own calOk a
  case initB a => exact seqInitB_own b a
  case sampleB a => exact seqSampleB_own calOk a
  all_goals simp [stepsOf, OwnStep, Transfers, window, internals]

/-- The window of a command whose operands are in range lies in RXBUF (R84). -/
theorem window_le_nmax {i : Instr} (hw : i.wf = true) : (window i).2 ≤ Config.nmax := by
  cases i <;> simp [Instr.wf, window, Config.nmax] at hw ⊢ <;> omega

theorem internals_inBuffer (i : Instr) : ∀ m ∈ internals i, m.inBuffer = true := by
  cases i <;> simp [internals, MStep.inBuffer]

theorem internals_builtIn {i : Instr} {v : Variant} (hv : i.builtIn v = true) : ∀ m ∈ internals i, m.builtIn v = true := by
  cases i <;> simp_all [internals, MStep.builtIn, Instr.builtIn, Instr.variant?]

/-- R84: the steps of a command whose operands are in range stay in RXBUF. -/
theorem OwnStep.inBuffer {i : Instr} {m : MStep} (hw : i.wf = true) : OwnStep i m → m.inBuffer = true
  | .inr h => internals_inBuffer i m h
  | .inl h => by
    have hmax := window_le_nmax hw
    cases m <;> simp [Transfers, MStep.inBuffer] at h ⊢ <;> omega

/-- R86 item 5: the steps of a command of the build belong to the variant built. -/
theorem OwnStep.builtIn {i : Instr} {m : MStep} {v : Variant} (hv : i.builtIn v = true) : OwnStep i m → m.builtIn v = true
  | .inr h => internals_builtIn hv m h
  | .inl h => by cases m <;> simp_all [Transfers, MStep.builtIn]

end Sys2Proof.Proofs.Steps
end

section
/-! PROOFS. Frames (R38): what a step of MSEQ may write, said once, and what a run, a command and a step of the machine
therefore leave unchanged. -/

namespace Sys2Proof.Proofs.Frame

open Sys2Proof Sys2Proof.Machine Sys2Proof.Proofs.Steps

/-! ### What every move of the engine may write -/

/-- The state without the inputs, the handshake, the fault record and the hidden engine state, which every move of the engine
may write. -/
def registers (s : State) : State :=
  { s with
    inputs := [], busy := false, done := false, faulted := false, faultCode := .none, faultCmd := 0, mseq := [], pend := none
    cmd := none }

@[simp] theorem registers_withInputs (l : List Input) (s : State) : registers (s.withInputs l) = registers s := rfl
@[simp] theorem registers_raise (c : FaultCode) (w : Word) (s : State) : registers (s.raise c w) = registers s := rfl
@[simp] theorem registers_accept (w : Word) (seq : List MStep) (s : State) :
    registers (s.accept w seq) = registers s := rfl
@[simp] theorem registers_issue (sym : Sym) (s : State) : registers (s.issue sym) = registers s := rfl
@[simp] theorem registers_retire (rest : List MStep) (s : State) : registers (s.retire rest) = registers s := by
  cases rest <;> rfl

/-- The completion of a request writes TRACE, PEND and the transport's registers (R100 to R105). -/
theorem effect_frame (m : MStep) (d : Byte) (s : State) :
    effect m d s = { s with
      tstate := (effect m d s).tstate, curAddr := (effect m d s).curAddr, curDir := (effect m d s).curDir
      rxdata := (effect m d s).rxdata, rxbuf := (effect m d s).rxbuf } := by
  cases m
  case wrb => dsimp only [effect]; split <;> rfl
  all_goals rfl

/-! ### The induction over a run -/

/-- What every step of a sequence keeps, done at once or completed, the run of the sequence keeps, from any state: for a
property of the registers. -/
theorem run_induction {P : State → Prop} (hregs : ∀ {u v}, registers u = registers v → P v → P u) {seq : List MStep}
    (done : ∀ m ∈ seq, ∀ u u', action m u = .done u' → P u → P u')
    (complete : ∀ m ∈ seq, ∀ u sym ack d, action m u = .request sym → P u → P (effect m d (u.record (sym.event ack d))))
    {s : State} (hs : P s) : P (run seq s) := by
  induction seq generalizing s with
  | nil => exact hs
  | cons m rest ih =>
    have next {u} (hu : P u) : P (run rest (u.retire rest)) :=
      ih (fun k hk => done k (.tail _ hk)) (fun k hk => complete k (.tail _ hk)) (hregs (registers_retire rest u) hu)
    simp only [run]
    split
    · exact hs
    · rename_i l _
      have hl : P (s.withInputs l) := hregs (by simp) hs
      split
      · exact hregs (by simp) hl
      · rename_i s' hd
        exact next (done m (.head _) _ s' hd hl)
      · rename_i sym hr
        split
        · rename_i ack d more _
          exact next (complete m (.head _) _ sym ack d (action_request hr rfl) (hregs (by simp) hl))
        · exact hregs (by simp) hl

/-- What the run of its steps keeps, a command keeps, taken or not: for a property of the registers. -/
theorem command_keeps {P : State → Prop} (hregs : ∀ {u v}, registers u = registers v → P v → P u) {i : Instr}
    {seq : List MStep} (hrun : i.wf = true → ∀ u, P u → P (run seq u)) {s : State} (hs : P s) : P (command i seq s) := by
  obtain ⟨-, h⟩ | ⟨-, -, h⟩ | ⟨-, -, -, h⟩ | ⟨-, -, ha, h⟩ := command_cases i seq s <;> rw [h]
  · exact hs
  · exact hregs (registers_raise _ _ s) hs
  · exact hregs (registers_raise _ _ s) hs
  · obtain ⟨hw, -⟩ : i.wf = true ∧ i.builtIn s.build.variant = true := by simpa [Instr.admitted] using ha
    exact hrun hw _ (hregs (registers_accept _ _ s) hs)

/-! ### What a step of MSEQ may write -/

/-- The state with everything forgotten that step `m` may write (R38, R101 to R105). -/
def forget (m : MStep) (s : State) : State :=
  match m with
  | .requireIdle | .requireUninit => s
  | .delay _ => { s with trace := [], pend := none }
  | .start | .stop => { s with trace := [], pend := none, tstate := .idle }
  | .wrb _ => { s with trace := [], pend := none, tstate := .idle, curAddr := 0, curDir := .write }
  | .rda i => { s with trace := [], pend := none, rxdata := none, rxbuf := s.rxbuf.setIfInBounds i none }
  | .rdnk i => { s with trace := [], pend := none, tstate := .idle, rxdata := none, rxbuf := s.rxbuf.setIfInBounds i none }
  | .latchRx16 _ => { s with rx16 := none }
  | .ldcalA | .ldcalB =>
    { s with cal := Vector.replicate 12 0, calOk := false, drvState := .uninit, fineValid := false }
  | .packAt => { s with rawT := none }
  | .packAp => { s with rawP := none }
  | .unpackB => { s with rawT := none, rawP := none }
  | .compAt | .compBt => { s with fine := none, tOut := none, fineValid := false }
  | .compAp | .compBp => { s with pOut := none, fineValid := false }
  | .setReady => { s with drvState := .uninit }
  | .zeroOutputs => { s with tOut := none, pOut := none }

/-- A step done at once writes no more than `forget` says. -/
theorem forget_done {m : MStep} {s s' : State} (h : action m s = .done s') : forget m s' = forget m s := by
  cases m <;> simp only [action] at h
  case requireIdle | requireUninit => split at h <;> simp_all
  case start => unfold requestStart at h; split at h <;> simp at h
  case wrb => unfold requestWrb at h; split at h <;> simp at h
  case rda | rdnk => unfold requestRead at h; split at h <;> simp at h
  case stop => unfold requestStop at h; split at h <;> simp at h
  case delay => simp at h
  case latchRx16 => obtain ⟨_, _, _, _, rfl⟩ := stepLatchRx16_ok (internal_done h); rfl
  case ldcalA => obtain ⟨_, _, rfl⟩ := stepLdcalA_ok (internal_done h); rfl
  case packAt => obtain ⟨_, rfl⟩ := stepPackAt_ok (internal_done h); rfl
  case packAp => obtain ⟨_, rfl⟩ := stepPackAp_ok (internal_done h); rfl
  case compAt => obtain ⟨_, rfl⟩ | ⟨_, _, _, rfl⟩ := stepCompAt_ok (internal_done h) <;> rfl
  case compAp => obtain ⟨_, rfl⟩ := stepCompAp_ok (internal_done h); rfl
  case ldcalB => obtain ⟨_, _, rfl⟩ := stepLdcalB_ok (internal_done h); rfl
  case unpackB => obtain ⟨_, rfl⟩ := stepUnpackB_ok (internal_done h); rfl
  case compBt => obtain ⟨_, rfl⟩ | ⟨_, _, _, rfl⟩ := stepCompBt_ok (internal_done h) <;> rfl
  case compBp => obtain ⟨_, rfl⟩ := stepCompBp_ok (internal_done h); rfl
  case setReady | zeroOutputs => simp only [Action.done.injEq] at h; subst h; rfl

/-- A request's completion writes no more than `forget` says. -/
theorem forget_complete {m : MStep} {s : State} {sym : Sym} (h : action m s = .request sym) (ack : Bool) (d : Byte) :
    forget m (effect m d (s.record (sym.event ack d))) = forget m s := by
  cases m <;> simp only [action] at h
  case wrb => dsimp only [effect]; split <;> rfl
  case start | stop | delay => rfl
  case rda | rdnk => simp [forget, effect, State.receive, State.record]
  case requireIdle | requireUninit => split at h <;> simp at h
  case setReady | zeroOutputs => simp at h
  all_goals exact absurd h internal_ne_request

/-! ### What a run, a command and a step leave unchanged -/

section
variable {α : Type} {f : State → α} (hf : ∀ s, f (registers s) = f s)
include hf

theorem eq_of_registers_eq {u v : State} (h : registers u = registers v) : f u = f v := by
  rw [← hf u, h, hf v]

/-- A run leaves what none of its steps may write. -/
theorem run_frame {seq : List MStep} (hstep : ∀ m ∈ seq, ∀ u, f (forget m u) = f u) (s : State) : f (run seq s) = f s := by
  refine run_induction (P := fun u => f u = f s) (fun h hv => (eq_of_registers_eq hf h).trans hv)
    (fun m hm u u' hd hu => ?_) (fun m hm u sym ack d hr hu => ?_) rfl
  · rw [← hstep m hm u', forget_done hd, hstep m hm u, hu]
  · rw [← hstep m hm, forget_complete hr, hstep m hm u, hu]

/-- The frame of a command (R38, R244): what none of its steps may write. -/
theorem exec_frame {i : Instr} {s t : State}
    (hstep : i.wf = true → ∀ m ∈ stepsOf s.build s.calOk i, ∀ u, f (forget m u) = f u) (h : exec i s = .next t) :
    f t = f s := by
  rw [exec_eq_command] at h
  obtain rfl := Host.Outcome.next.inj h
  exact command_keeps (P := fun u => f u = f s) (fun e hv => (eq_of_registers_eq hf e).trans hv)
    (fun hw u hu => (run_frame hf (hstep hw) u).trans hu) rfl

end

/-! ### The two halves of the state -/

/-- The transport's half of the registers, with TRACE and what every command leaves alone. -/
def transportPart (s : State) : State :=
  { State.resetOf s.build with
    tstate := s.tstate, trace := s.trace, rxbuf := s.rxbuf, rxdata := s.rxdata, rx16 := s.rx16, curAddr := s.curAddr
    curDir := s.curDir, hostData := s.hostData, draws := s.draws }

/-- The datapath's half of the registers, with what every command leaves alone. -/
def datapathPart (s : State) : State :=
  { State.resetOf s.build with
    drvState := s.drvState, calOk := s.calOk, fineValid := s.fineValid, rawT := s.rawT, rawP := s.rawP, fine := s.fine
    tOut := s.tOut, pOut := s.pOut, cal := s.cal, hostData := s.hostData, draws := s.draws }

theorem transportPart_eq_iff {s t : State} : transportPart t = transportPart s ↔
    t.build = s.build ∧ t.tstate = s.tstate ∧ t.rxdata = s.rxdata ∧ t.rx16 = s.rx16 ∧ t.curAddr = s.curAddr ∧
    t.curDir = s.curDir ∧ t.rxbuf = s.rxbuf ∧ t.trace = s.trace ∧ t.hostData = s.hostData ∧ t.draws = s.draws := by
  simp only [transportPart, State.resetOf, State.mk.injEq, true_and]

theorem datapathPart_eq_iff {s t : State} : datapathPart t = datapathPart s ↔
    t.build = s.build ∧ t.drvState = s.drvState ∧ t.calOk = s.calOk ∧ t.fineValid = s.fineValid ∧
    t.rawT = s.rawT ∧ t.rawP = s.rawP ∧ t.fine = s.fine ∧ t.tOut = s.tOut ∧ t.pOut = s.pOut ∧ t.cal = s.cal ∧
    t.hostData = s.hostData ∧ t.draws = s.draws := by
  simp only [datapathPart, State.resetOf, State.mk.injEq, true_and]

/-- Transfers write nothing of the datapath (R100 to R105, R132). -/
theorem datapathPart_forget {latch : Bool} {lo hi : Nat} {m : MStep} (h : Transfers latch lo hi m) (u : State) :
    datapathPart (forget m u) = datapathPart u := by
  cases m
  case ldcalA | packAt | packAp | compAt | compAp | ldcalB | unpackB | compBt | compBp | setReady | zeroOutputs =>
    exact h.elim
  all_goals rfl

/-- The other steps write nothing of the transport (R161 to R171, R201 to R211). -/
theorem transportPart_forget (i : Instr) : ∀ m ∈ internals i, ∀ u, transportPart (forget m u) = transportPart u := by
  cases i <;> simp [internals, forget, transportPart]

section
variable {α : Type} {f : State → α} {i : Instr} {s t : State} (h : exec i s = .next t)
include h

/-- What a command leaves of the datapath's registers: what none of its steps but the transfers may write. -/
theorem exec_datapath_frame (hf : ∀ s, f (datapathPart s) = f s) (hstep : ∀ m ∈ internals i, ∀ u, f (forget m u) = f u) :
    f t = f s := by
  refine exec_frame (fun u => (hf (registers u)).symm.trans (hf u)) (fun hw m hm u => ?_) h
  obtain htr | hin := stepsOf_own _ _ hw m hm
  · rw [← hf (forget m u), datapathPart_forget htr, hf]
  · exact hstep m hin u

/-- What a command leaves of the transport's registers: what none of its transfers may write. -/
theorem exec_transport_frame (hf : ∀ s, f (transportPart s) = f s)
    (hstep : ∀ m, Transfers (latches i) (window i).1 (window i).2 m → ∀ u, f (forget m u) = f u) : f t = f s := by
  refine exec_frame (fun u => (hf (registers u)).symm.trans (hf u)) (fun hw m hm u => ?_) h
  obtain htr | hin := stepsOf_own _ _ hw m hm
  · exact hstep m htr u
  · rw [← hf (forget m u), transportPart_forget i m hin, hf]

/-- RXBUF outside the command's window is unchanged (R103, R104). -/
theorem exec_rx_outside {j : Nat} (hj : j < (window i).1 ∨ (window i).2 ≤ j) : t.rx j = s.rx j := by
  refine exec_transport_frame (f := fun u => u.rx j) h (fun _ => rfl) (fun m htr u => ?_)
  cases m
  case rda k | rdnk k =>
    have hne : k ≠ j := by
      obtain ⟨hlo, hhi⟩ : (window i).1 ≤ k ∧ k < (window i).2 := htr
      omega
    simp [State.rx, forget, Vector.getElem?_setIfInBounds_ne hne]
  all_goals rfl

/-- Only RD2 writes RX16 (R132). -/
theorem exec_rx16 (hl : latches i = false) : t.rx16 = s.rx16 := by
  refine exec_transport_frame (f := State.rx16) h (fun _ => rfl) (fun m htr u => ?_)
  cases m
  case latchRx16 => simp [Transfers, hl] at htr
  all_goals rfl

/-- A command without a window reads no byte (R103, R104). -/
theorem exec_rxdata (hw : window i = (0, 0)) : t.rxdata = s.rxdata := by
  refine exec_transport_frame (f := State.rxdata) h (fun _ => rfl) (fun m htr u => ?_)
  cases m
  case rda | rdnk => simp [Transfers, hw] at htr
  all_goals rfl

end

/-! ### The frame statements -/

theorem internals_eq_nil {i : Instr} (h : i.variant? = none) : internals i = [] := by
  cases i <;> simp_all [internals, Instr.variant?]

/-- Settles O56: the transfers write nothing of the datapath, and of the transport's registers only what their kinds name. -/
theorem busCommandFrame : Obligations.BusCommandFrame := by
  unfold Obligations.BusCommandFrame
  intro i s t hi h
  have hdata : datapathPart t = datapathPart s :=
    exec_datapath_frame h (fun _ => rfl) (by simp [internals_eq_nil hi])
  obtain ⟨hbuild, hdrv, hcalOk, hvalid, hrawT, hrawP, hfine, htOut, hpOut, hcal, hhost, hdraws⟩ :=
    datapathPart_eq_iff.1 hdata
  refine ⟨hbuild, hdrv, hcalOk, hvalid, hrawT, hrawP, hfine, htOut, hpOut, hcal, hhost, hdraws,
    fun hrd2 => exec_rx16 h ?_, fun j hj => ?_, fun hne => ?_, fun hx => ?_⟩
  · cases i
    case rd2 a r o => exact absurd rfl (hrd2 a r o)
    case sampleA | initB => simp [Instr.variant?] at hi
    all_goals rfl
  · have hin : ¬ (j < (window i).1 ∨ (window i).2 ≤ j) := fun hout => hj (exec_rx_outside h hout)
    cases i <;> simp [window, Instr.variant?] at hin hi ⊢ <;> omega
  · cases i
    case start | wrb | stop | wr1 | setptr => exact hne (exec_rxdata h rfl)
    case rda | rdnk | rd1 | rd2 | rdburst | rdcur => trivial
    all_goals simp [Instr.variant?] at hi
  · have hcur : (t.curAddr, t.curDir) = (s.curAddr, s.curDir) := by
      refine exec_frame (f := fun u => (u.curAddr, u.curDir)) (fun _ => rfl) (fun _ m hm u => ?_) h
      cases i
      case start | rda | rdnk | stop => cases List.mem_singleton.1 hm; rfl
      all_goals exact hx.elim
    exact Prod.mk.inj hcur

/-- The calibration loads, the packings and the compensations. -/
abbrev datapathCommands : List Instr :=
  [.ldcalA, .packAt, .packAp, .compAt, .compAp, .ldcalB, .unpackB, .compBt, .compBp]

/-- Such a command is one step. -/
theorem stepsOf_datapath (b : Build) (calOk : Bool) : ∀ i ∈ datapathCommands, stepsOf b calOk i = internals i := by
  simp [stepsOf, internals]

/-! Which of them write each result (R161 to R167, R201 to R207). -/

theorem datapath_calibration : ∀ i ∈ datapathCommands, i ∉ [Instr.ldcalA, .ldcalB] → ∀ m ∈ internals i, ∀ u,
    ((forget m u).cal, (forget m u).calOk, (forget m u).drvState) = (u.cal, u.calOk, u.drvState) := by
  simp [internals, forget]

theorem datapath_rawT : ∀ i ∈ datapathCommands, i ∉ [Instr.packAt, .unpackB] → ∀ m ∈ internals i, ∀ u,
    (forget m u).rawT = u.rawT := by
  simp [internals, forget]

theorem datapath_rawP : ∀ i ∈ datapathCommands, i ∉ [Instr.packAp, .unpackB] → ∀ m ∈ internals i, ∀ u,
    (forget m u).rawP = u.rawP := by
  simp [internals, forget]

theorem datapath_temperature : ∀ i ∈ datapathCommands, i ∉ [Instr.compAt, .compBt] → ∀ m ∈ internals i, ∀ u,
    ((forget m u).fine, (forget m u).tOut) = (u.fine, u.tOut) := by
  simp [internals, forget]

theorem datapath_pOut : ∀ i ∈ datapathCommands, i ∉ [Instr.compAp, .compBp] → ∀ m ∈ internals i, ∀ u,
    (forget m u).pOut = u.pOut := by
  simp [internals, forget]

theorem packing_fineValid : ∀ i ∈ [Instr.packAt, .packAp, .unpackB], ∀ m ∈ internals i, ∀ u,
    (forget m u).fineValid = u.fineValid := by
  simp [internals, forget]

/-- Settles O57: the one step of the command writes nothing of the transport, and of the datapath its own results. -/
theorem datapathCommandFrame : Obligations.DatapathCommandFrame := by
  unfold Obligations.DatapathCommandFrame
  intro i s t hi h
  have htransport : transportPart t = transportPart s :=
    exec_frame (fun _ => rfl) (fun _ m hm => transportPart_forget i m (stepsOf_datapath _ _ i hi ▸ hm)) h
  obtain ⟨hbuild, htstate, hrxdata, hrx16, hcurAddr, hcurDir, hrxbuf, htrace, hhost, hdraws⟩ :=
    transportPart_eq_iff.1 htransport
  refine ⟨hbuild, htstate, htrace, hrxbuf, hrxdata, hrx16, hcurAddr, hcurDir, hhost, hdraws, fun hne => ?_,
    fun hne => exec_datapath_frame (f := State.rawT) h (fun _ => rfl) (datapath_rawT i hi hne),
    fun hne => exec_datapath_frame (f := State.rawP) h (fun _ => rfl) (datapath_rawP i hi hne), fun hne => ?_,
    fun hne => exec_datapath_frame (f := State.pOut) h (fun _ => rfl) (datapath_pOut i hi hne),
    fun hin => exec_datapath_frame (f := State.fineValid) h (fun _ => rfl) (packing_fineValid i hin)⟩
  · simpa using exec_datapath_frame (f := fun u => (u.cal, u.calOk, u.drvState)) h (fun _ => rfl)
      (datapath_calibration i hi hne)
  · simpa using exec_datapath_frame (f := fun u => (u.fine, u.tOut)) h (fun _ => rfl) (datapath_temperature i hi hne)

/-- What a command whose own steps are a calibration load and DRV_STATE's write leaves of the datapath (R170, R210). -/
theorem exec_frame_of_load {i : Instr} {s t : State} (h : exec i s = .next t)
    (hi : internals i = [.ldcalA, .setReady] ∨ internals i = [.ldcalB, .setReady]) :
    t.build = s.build ∧ t.rawT = s.rawT ∧ t.rawP = s.rawP ∧ t.fine = s.fine ∧ t.tOut = s.tOut ∧ t.pOut = s.pOut ∧
      t.hostData = s.hostData ∧ t.draws = s.draws := by
  simpa using exec_datapath_frame
    (f := fun u => (u.build, u.rawT, u.rawP, u.fine, u.tOut, u.pOut, u.hostData, u.draws)) h (fun _ => rfl)
    (by rcases hi with hi | hi <;> simp [hi, forget])

/-- The calibration is written by a load, and DRV_STATE by INIT's last step too (R33, R38). -/
theorem forget_calibration {m : MStep} (hm : m ∉ [MStep.ldcalA, .ldcalB, .setReady]) (u : State) :
    (forget m u).cal = u.cal ∧ (forget m u).calOk = u.calOk ∧ (forget m u).drvState = u.drvState := by
  cases m
  case ldcalA | ldcalB | setReady => simp at hm
  all_goals exact ⟨rfl, rfl, rfl⟩

/-- No step of MSEQ writes the build options or what the host last read (R20, log 9). -/
theorem forget_outside (m : MStep) (u : State) :
    (forget m u).build = u.build ∧ (forget m u).hostData = u.hostData ∧ (forget m u).draws = u.draws := by
  cases m <;> exact ⟨rfl, rfl, rfl⟩

/-- What a command that loads no calibration leaves of the datapath (R171, R211). -/
theorem exec_frame_of_no_load {i : Instr} {s t : State} (h : exec i s = .next t)
    (hi : ∀ m ∈ internals i, m ∉ [MStep.ldcalA, .ldcalB, .setReady]) :
    t.build = s.build ∧ t.cal = s.cal ∧ t.calOk = s.calOk ∧ t.drvState = s.drvState ∧
      t.hostData = s.hostData ∧ t.draws = s.draws := by
  simpa using exec_datapath_frame (f := fun u => (u.build, u.cal, u.calOk, u.drvState, u.hostData, u.draws)) h
    (fun _ => rfl) (fun m hm u => by
      obtain ⟨hbuild, hhost, hdraws⟩ := forget_outside m u
      obtain ⟨hcal, hcalOk, hdrv⟩ := forget_calibration (hi m hm) u
      simp [hbuild, hhost, hdraws, hcal, hcalOk, hdrv])

/-- Settles O58: the steps of INIT and SAMPLE are transfers within a window of RXBUF and datapath steps that write only the
commands' results. -/
theorem driverCommandFrame : Obligations.DriverCommandFrame := by
  unfold Obligations.DriverCommandFrame
  intro a s t
  refine ⟨?_, ?_, ?_, fun h j hj => exec_rx_outside h (.inr hj), fun h j hj => exec_rx_outside h (.inr hj),
    fun h j hj => exec_rx_outside h (.inr hj), fun h j hj => exec_rx_outside h (.inr hj)⟩
  · rintro (h | h)
    · exact exec_frame_of_load h (.inl rfl)
    · exact exec_frame_of_load h (.inr rfl)
  · rintro (h | h) <;> exact exec_frame_of_no_load h (by simp [internals])
  · rintro (h | h) <;> exact exec_rx16 h rfl

end Sys2Proof.Proofs.Frame
end

section
/-! PROOFS. The induction over one step of the machine (log 1), and what every step keeps: the build options and a loaded
calibration. -/

namespace Sys2Proof.Proofs.Step

open Sys2Proof Sys2Proof.Machine Sys2Proof.Proofs.Steps Sys2Proof.Proofs.Frame

/-! ### The induction over a step -/

section
variable {P : State → Prop}
  (returnWord : ∀ (v : Word) (s : State), P s → P (s.returnWord v))
  (returnAny : ∀ (mask : Word) (s : State), P s → P (s.returnAny mask))
  (raise : ∀ (c : FaultCode) (w : Word) (s : State), c ≠ .none → P s → P (s.raise c w))
  (resume : ∀ s : State, P s → P (resume s))
  (commands : ∀ (i : Instr) (s t : State), P s → exec i s = .next t → P t)

include returnWord returnAny in
theorem readReg_keeps (r : HostReg) {s : State} (hs : P s) : P (readReg r s) := by
  unfold readReg
  split
  · exact returnAny _ s hs
  · split
    · exact returnWord _ s hs
    · exact returnAny _ s hs

include raise in
theorem illegalAccess_keeps (offset : Word) {s : State} (hs : P s) : P (illegalAccess offset s) := by
  unfold illegalAccess
  split
  · exact hs
  · exact raise _ _ s (by decide) hs

include raise in
theorem illegalWord_keeps (w : Word) {s : State} (hs : P s) : P (illegalWord w s) := by
  unfold illegalWord
  split
  · exact hs
  · split <;> exact raise _ _ s (by decide) hs

include raise commands in
theorem writeCmd_keeps {w : Word} {s t : State} (hs : P s) (h : writeCmd w s = .next t) : P t := by
  unfold writeCmd at h
  split at h
  · exact commands _ s t hs h
  · obtain rfl := Host.Outcome.next.inj h
    exact illegalWord_keeps raise w hs

include returnWord returnAny raise resume commands in
theorem hostAccess_keeps {a : HostAccess} {s t : State} (hs : P s) (h : hostAccess a s = .next t) : P t := by
  cases a with
  | write offset bytes data =>
    simp only [hostAccess] at h
    split at h
    · exact writeCmd_keeps raise commands hs h
    · obtain rfl := Host.Outcome.next.inj h
      exact illegalAccess_keeps raise offset hs
  | read offset bytes =>
    simp only [hostAccess] at h
    split at h
    · obtain rfl := Host.Outcome.next.inj h
      exact returnAny _ _ (illegalAccess_keeps raise offset hs)
    · obtain rfl := Host.Outcome.next.inj h
      exact returnAny _ _ (illegalAccess_keeps raise offset hs)
    · obtain rfl := Host.Outcome.next.inj h
      exact resume _ (readReg_keeps returnWord returnAny _ hs)

include returnWord returnAny raise resume commands in
/-- What every operation a step is made of keeps, the step keeps. -/
theorem step_keeps (withInputs : ∀ (l : List Input) (s : State), P s → P (s.withInputs l))
    (completion : ∀ (ack : Bool) (d : Byte) (s : State), P s → P (takeCompletion ack d s))
    {s t : State} (reset : ∀ more, s.inputs = .reset :: more → P (s.withInputs more).hardReset)
    (hs : P s) (h : step s = .next t) : P t := by
  simp only [step, advance] at h
  split at h
  case h_1 => exact Host.Outcome.next.inj h ▸ resume s hs
  case h_2 n more _ =>
    obtain rfl := Host.Outcome.next.inj h
    unfold takeHold
    split
    · exact resume s hs
    · exact withInputs more s hs
  case h_3 more hi => exact Host.Outcome.next.inj h ▸ reset more hi
  case h_4 ack d more _ =>
    split at h
    · exact Host.Outcome.next.inj h ▸ resume s hs
    · exact Host.Outcome.next.inj h ▸ completion ack d _ (withInputs more s hs)
  case h_5 a more _ => exact hostAccess_keeps returnWord returnAny raise resume commands (withInputs more s hs) h

end

/-- The same induction for a property of the registers that no host read changes: what every step of MSEQ keeps, done at once
or completed, from any state. -/
theorem step_induction {P : State → Prop} (hregs : ∀ {u v}, registers u = registers v → P v → P u)
    (hread : ∀ (u : State) hostData draws, P u → P { u with hostData := hostData, draws := draws })
    (done : ∀ m u u', action m u = .done u' → P u → P u')
    (complete : ∀ m u e d, P u → P (effect m d (u.record e)))
    {s t : State} (reset : ∀ more, s.inputs = .reset :: more → P (s.withInputs more).hardReset)
    (hs : P s) (h : step s = .next t) : P t := by
  have hrun {seq u} : P u → P (run seq u) :=
    run_induction hregs (fun m _ => done m) (fun m _ u sym ack d _ => complete m u _ d)
  refine step_keeps (fun v u => hread u (some v) u.draws) (fun mask u => hread u _ _)
    (fun c w u _ => hregs (registers_raise c w u)) (fun u hu => resume_keeps (fun _ => hrun hu) hu) (fun i u v hu hv => ?_)
    (fun l u => hregs (registers_withInputs l u)) (fun ack d u hu => ?_) reset hs h
  · rw [exec_eq_command] at hv
    obtain rfl := Host.Outcome.next.inj hv
    exact command_keeps hregs (fun _ _ => hrun) hu
  · unfold takeCompletion
    split
    · exact hrun (hregs (registers_retire _ _) (complete _ _ _ _ hu))
    · exact hu
    · exact hu

/-! ### The build options (R20) -/

/-- Settles O6: nothing the engine or the host port does writes the build, and reset keeps it. -/
theorem buildNeverWritten : Obligations.BuildNeverWritten := by
  unfold Obligations.BuildNeverWritten
  intro s t
  refine step_induction (P := fun u => u.build = s.build) (fun e hv => (congrArg State.build e).trans hv)
    (fun _ _ _ hu => hu) (fun m u u' hd hu => ?_) (fun m u e d hu => ?_) (fun _ _ => rfl) rfl
  · rw [action_done hd]; exact hu
  · rw [effect_frame]; exact hu

/-! ### The calibration (R32, R33, R34) -/

/-- CAL and CAL_OK as in `s`, DRV_STATE no further back. -/
def CalibrationKept (s t : State) : Prop :=
  t.cal = s.cal ∧ t.calOk = s.calOk ∧ (t.drvState = s.drvState ∨ (s.drvState = .calLoaded ∧ t.drvState = .ready))

/-- Once a calibration is loaded, a step done at once writes of it only DRV_STATE, and that only to READY (R33). -/
theorem action_done_calibration {m : MStep} {u u' : State} (h : action m u = .done u') (hu : u.drvState ≠ .uninit) :
    u'.cal = u.cal ∧ u'.calOk = u.calOk ∧ (u'.drvState = u.drvState ∨ u'.drvState = .ready) := by
  by_cases hm : m ∈ [MStep.ldcalA, .ldcalB, .setReady]
  · simp only [List.mem_cons, List.not_mem_nil, or_false] at hm
    obtain rfl | rfl | rfl := hm
    · exact absurd (stepLdcalA_ok (internal_done h)).1 hu
    · exact absurd (stepLdcalB_ok (internal_done h)).1 hu
    · obtain rfl := Action.done.inj h
      exact ⟨rfl, rfl, .inr rfl⟩
  · obtain ⟨hcal, hcalOk, hdrv⟩ := forget_calibration hm u
    obtain ⟨hcal', hcalOk', hdrv'⟩ := forget_calibration hm u'
    rw [forget_done h] at hcal' hcalOk' hdrv'
    exact ⟨hcal'.symm.trans hcal, hcalOk'.symm.trans hcalOk, .inl (hdrv'.symm.trans hdrv)⟩

theorem CalibrationKept.done {s u u' : State} (hs : s.drvState ≠ .uninit) {m : MStep} (h : action m u = .done u')
    (hu : CalibrationKept s u) : CalibrationKept s u' := by
  obtain ⟨hcal, hcalOk, hdrv⟩ := hu
  have hloaded : u.drvState ≠ .uninit := by
    rcases hdrv with hdrv | ⟨-, hdrv⟩ <;> simp [hdrv, hs]
  obtain ⟨hcal', hcalOk', hdrv'⟩ := action_done_calibration h hloaded
  refine ⟨hcal'.trans hcal, hcalOk'.trans hcalOk, ?_⟩
  rcases hdrv' with hsame | hready
  · rw [hsame]; exact hdrv
  · cases hd : s.drvState with
    | uninit => exact absurd hd hs
    | calLoaded => exact .inr ⟨rfl, hready⟩
    | ready => exact .inl hready

/-- Settles O55: a load faults once DRV_STATE has left UNINIT, and nothing else writes the calibration. -/
theorem calibrationIsImmutable : Obligations.CalibrationIsImmutable := by
  unfold Obligations.CalibrationIsImmutable
  intro s t hs hreset
  refine step_induction (P := CalibrationKept s) (fun {u v} e hv => ?_) (fun _ _ _ hu => hu)
    (fun m u u' hd hu => hu.done hs hd) (fun m u e d hu => ?_) (fun more hi => absurd hi (hreset more))
    ⟨rfl, rfl, .inl rfl⟩
  · have hu : CalibrationKept s (registers u) := e ▸ hv
    exact hu
  · rw [effect_frame]; exact hu

end Sys2Proof.Proofs.Step
end

section
/-! PROOFS. The machine invariant (`State.Inv`): it holds at reset, every operation a step is made of keeps it, and so every
step does. -/

namespace Sys2Proof.Proofs.Invariant

open Sys2Proof Sys2Proof.Machine Sys2Proof.Proofs.Steps Sys2Proof.Proofs.Frame Sys2Proof.Proofs.Step
open Sys2Proof.Proofs.Overflow

/-! ### Reset -/

theorem inv_resetOf {b : Build} (hb : b.wf) : (State.resetOf b).Inv where
  buildWf := hb
  busyIff := rfl
  busyClear := fun h => (Bool.false_ne_true h).elim
  cmdHeld := rfl
  pendHead := fun _ h => nomatch h
  seqInBuffer := rfl
  seqBuilt := rfl
  faultIff := ⟨fun h => (Bool.false_ne_true h).elim, fun h => (h rfl).elim⟩
  faultDone := fun h => (Bool.false_ne_true h).elim
  fineWritten := fun h => (Bool.false_ne_true h).elim
  calUnloaded := fun _ => ⟨rfl, rfl⟩
  calLastA := fun _ => rfl
  rawT20 := rfl
  rawP20 := rfl
  tracePhase := rfl

/-- Settles O3: the reset values meet every clause; the default build has at least two identity reads. -/
theorem invariantAtReset : Obligations.InvariantAtReset := by
  unfold Obligations.InvariantAtReset
  exact ⟨inv_resetOf (Nat.le_add_left 2 _), fun b hb => inv_resetOf hb⟩

/-! ### The clause on the outstanding request, which TSTATE decides -/

theorem pendHead_congr {s t : State} (h : s.Inv) (hpend : t.pend = s.pend) (hmseq : t.mseq = s.mseq)
    (htstate : t.tstate = s.tstate) :
    ∀ sym, t.pend = some sym → ∃ m rest, t.mseq = m :: rest ∧ action m t = .request sym := by
  intro sym hp
  obtain ⟨m, rest, hm, ha⟩ := h.pendHead sym (hpend ▸ hp)
  exact ⟨m, rest, hmseq.trans hm, action_request ha htstate⟩

/-- An idle block has no steps left and no request outstanding. -/
theorem idle_of_inv {s : State} (h : s.Inv) (hb : s.busy = false) : s.mseq = [] ∧ s.pend = none := by
  have hm : s.mseq = [] := by simpa [hb] using h.busyIff
  refine ⟨hm, Option.eq_none_iff_forall_ne_some.2 fun sym hp => ?_⟩
  obtain ⟨m, rest, hcons, -⟩ := h.pendHead sym hp
  simp [hm] at hcons

/-- A block with steps left is busy, so neither done nor faulted. -/
theorem busy_of_inv {s : State} (h : s.Inv) {m : MStep} {rest : List MStep} (hm : s.mseq = m :: rest) :
    s.busy = true ∧ s.done = false ∧ s.faulted = false := by
  have hb : s.busy = true := by simp [h.busyIff, hm]
  exact ⟨hb, h.busyClear hb⟩

/-! ### The operations on the handshake and outside the block -/

/-- No clause speaks of the inputs, of what the host last read or of the free values drawn. -/
theorem inv_outside {s : State} (h : s.Inv) (l : List Input) (v : Option Word) (n : Nat) :
    State.Inv { s with inputs := l, hostData := v, draws := n } :=
  { h with pendHead := pendHead_congr h rfl rfl rfl }

theorem inv_raise {s : State} (h : s.Inv) {c : FaultCode} (hc : c ≠ .none) (w : Word) : (s.raise c w).Inv :=
  { h with
    busyIff := rfl
    busyClear := fun hb => (Bool.false_ne_true hb).elim
    cmdHeld := rfl
    pendHead := fun _ hp => nomatch hp
    seqInBuffer := rfl
    seqBuilt := rfl
    faultIff := ⟨fun _ => hc, fun _ => rfl⟩
    faultDone := fun _ => rfl }

theorem inv_accept {s : State} (h : s.Inv) (hf : s.faulted = false) (hb : s.busy = false) (w : Word) {seq : List MStep}
    (hne : seq ≠ []) (hbuf : ∀ m ∈ seq, m.inBuffer = true) (hbuilt : ∀ m ∈ seq, m.builtIn s.build.variant = true) :
    (s.accept w seq).Inv :=
  { h with
    busyIff := by simpa using hne
    busyClear := fun _ => ⟨rfl, hf⟩
    cmdHeld := rfl
    pendHead := fun _ hp => by simp [(idle_of_inv h hb).2] at hp
    seqInBuffer := List.all_eq_true.2 hbuf
    seqBuilt := List.all_eq_true.2 hbuilt
    faultDone := fun hf' => by simp [hf] at hf' }

theorem inv_issue {s : State} (h : s.Inv) {m : MStep} {rest : List MStep} {sym : Sym} (hm : s.mseq = m :: rest)
    (ha : action m s = .request sym) : (s.issue sym).Inv :=
  { h with
    pendHead := fun sym' hp => by
      obtain rfl : sym = sym' := Option.some.inj hp
      exact ⟨m, rest, hm, action_request ha rfl⟩ }

/-- A step that is over leaves the rest, with the handshake of the last one. -/
theorem inv_retire {s : State} (h : s.Inv) (hp : s.pend = none) {m : MStep} {rest : List MStep} (hm : s.mseq = m :: rest) :
    (s.retire rest).Inv := by
  obtain ⟨hb, hd, hf⟩ := busy_of_inv h hm
  have hbuf := h.seqInBuffer
  have hbuilt := h.seqBuilt
  rw [hm, List.all_cons, Bool.and_eq_true] at hbuf hbuilt
  cases rest with
  | nil =>
    exact { h with
      busyIff := rfl
      busyClear := fun hb' => (Bool.false_ne_true hb').elim
      cmdHeld := rfl
      pendHead := fun _ hp' => by simp [hp] at hp'
      seqInBuffer := rfl
      seqBuilt := rfl
      faultDone := fun _ => rfl }
  | cons k more =>
    exact { h with
      busyIff := hb
      pendHead := fun _ hp' => by simp [hp] at hp'
      seqInBuffer := hbuf.2
      seqBuilt := hbuilt.2 }

/-! ### A request's completion (R100 to R105, R107) -/

section
variable {s : State} {sym : Sym}

theorem requestStart_request (h : requestStart s = .request sym) :
    (s.tstate = .idle ∧ sym = .start) ∨ ((s.tstate = .tx ∨ s.tstate = .rxend) ∧ sym = .repStart) := by
  unfold requestStart at h
  split at h <;> simp_all

theorem requestWrb_request {b : Byte} (h : requestWrb b s = .request sym) :
    (s.tstate = .started ∨ s.tstate = .tx) ∧ sym = .write b := by
  unfold requestWrb at h
  split at h <;> simp_all

theorem requestRead_request {m : Bool} (h : requestRead m s = .request sym) : s.tstate = .rx ∧ sym = .read m := by
  unfold requestRead at h
  split at h <;> simp_all

theorem requestStop_request (h : requestStop s = .request sym) :
    (s.tstate = .tx ∨ s.tstate = .rxend) ∧ sym = .stop := by
  unfold requestStop at h
  split at h <;> simp_all

end

/-- The phase an address byte sets is the one R107 says (R102). -/
theorem busPhase_address (s : State) (b : Byte) (ack : Bool) :
    busPhase .started (.write b ack) = some (s.address b).tstate := by
  cases hb : b.getLsbD 0 <;> simp only [busPhase, State.address_tstate, dirOf, hb] <;> rfl

theorem tracePhase_append (t : TState) (tr : List BusEvent) (e : BusEvent) :
    tracePhase t (tr ++ [e]) = (tracePhase t tr).bind (busPhase · e) := by
  induction tr generalizing t with
  | nil => cases h : busPhase t e <;> simp [tracePhase, h]
  | cons x tr ih => cases h : busPhase t x <;> simp [tracePhase, h, ih]

/-- The event of a completed request leads to the phase its effect sets (R107). -/
theorem busPhase_event {m : MStep} {s : State} {sym : Sym} (h : action m s = .request sym) (ack : Bool) (d : Byte) :
    busPhase s.tstate (sym.event ack d) = some (effect m d s).tstate := by
  cases m <;> simp only [action] at h
  case start =>
    obtain ⟨hs, rfl⟩ | ⟨hs | hs, rfl⟩ := requestStart_request h <;> rw [hs] <;> rfl
  case wrb b =>
    obtain ⟨hs | hs, rfl⟩ := requestWrb_request h
    · simp only [effect, hs]
      exact busPhase_address s b ack
    · simp only [effect, hs]
      rfl
  case rda | rdnk =>
    obtain ⟨hs, rfl⟩ := requestRead_request h
    simp [Sym.event, effect, busPhase, hs]
  case stop =>
    obtain ⟨hs | hs, rfl⟩ := requestStop_request h <;> rw [hs] <;> rfl
  case delay =>
    obtain rfl := Action.request.inj h
    simp [Sym.event, effect, busPhase]
  case requireIdle | requireUninit => split at h <;> simp at h
  case setReady | zeroOutputs => simp at h
  all_goals exact absurd h internal_ne_request

/-- R109: the event of a completed request continues the trace to the new TSTATE. -/
theorem tracePhase_completed {m : MStep} {s : State} {sym : Sym}
    (h : tracePhase .idle s.trace = some s.tstate) (ha : action m s = .request sym) (ack : Bool) (d : Byte) :
    tracePhase .idle (s.trace ++ [sym.event ack d]) = some (effect m d (s.record (sym.event ack d))).tstate := by
  rw [tracePhase_append, h]
  exact busPhase_event (action_request (t := s.record (sym.event ack d)) ha rfl) ack d

theorem inv_effect {s : State} (h : s.Inv) {m : MStep} {sym : Sym} (ha : action m s = .request sym) (ack : Bool)
    (d : Byte) : (effect m d (s.record (sym.event ack d))).Inv := by
  have htrace := tracePhase_completed h.tracePhase ha ack d
  rw [effect_frame]
  exact { h with pendHead := (fun _ hp => nomatch hp), tracePhase := htrace }

theorem inv_completed {s : State} (h : s.Inv) {m : MStep} {rest : List MStep} {sym : Sym} (hm : s.mseq = m :: rest)
    (ha : action m s = .request sym) (ack : Bool) (d : Byte) : (completed m sym ack d rest s).Inv := by
  refine inv_retire (inv_effect h ha ack d) ?_ (m := m) ?_ <;> rw [effect_frame]
  · rfl
  · exact hm

/-! ### Datapath steps -/

theorem packAt_in_range (h l : Byte) : rawInRange (some ((bePair h l).setWidth 32)) = true := by
  have hlt := (bePair h l).isLt
  simp only [rawInRange, BitVec.toNat_setWidth, decide_eq_true_eq]
  omega

theorem toNat_byte_shiftLeft (b : Byte) (k : Nat) :
    ((b.setWidth 32 : Word) <<< k).toNat < 2 ^ (8 + k) := by
  have hb : b.toNat * 2 ^ k < 2 ^ (8 + k) := by
    rw [Nat.pow_add]
    exact Nat.mul_lt_mul_of_pos_right b.isLt (Nat.two_pow_pos k)
  rw [BitVec.toNat_shiftLeft, BitVec.toNat_setWidth, Nat.shiftLeft_eq,
    Nat.mod_eq_of_lt (a := b.toNat) (b.isLt.trans (by decide))]
  exact (Nat.mod_le _ _).trans_lt hb

theorem packAp_in_range (b0 b1 b2 : Byte) : rawInRange (some (packAp b0 b1 b2)) = true := by
  have h0 := toNat_byte_shiftLeft b0 16
  have h1 := toNat_byte_shiftLeft b1 8
  have h2 : (b2.setWidth 32 : Word).toNat < 2 ^ 24 := by have := b2.isLt; rw [BitVec.toNat_setWidth]; omega
  have hor := Nat.or_lt_two_pow (Nat.or_lt_two_pow (n := 24) h0 (h1.trans (by decide))) h2
  rw [rawInRange, decide_eq_true_eq, packAp, BitVec.toNat_ushiftRight, BitVec.toNat_or, BitVec.toNat_or,
    Nat.shiftRight_eq_div_pow]
  exact Nat.div_lt_of_lt_mul (hor.trans (show 2 ^ 24 < 2 ^ 8 * 2 ^ 20 by decide))

theorem pack20_in_range (b0 b1 b2 : Byte) : rawInRange (some (pack20 b0 b1 b2)) = true := by
  have h0 := toNat_byte_shiftLeft b0 12
  have h1 := toNat_byte_shiftLeft b1 4
  have h2 : (b2.setWidth 32 >>> 4 : Word).toNat < 2 ^ 20 := by
    have := b2.isLt
    rw [BitVec.toNat_ushiftRight, BitVec.toNat_setWidth, Nat.shiftRight_eq_div_pow]
    omega
  rw [rawInRange, decide_eq_true_eq, pack20, BitVec.toNat_or, BitVec.toNat_or]
  exact Nat.or_lt_two_pow (Nat.or_lt_two_pow (n := 20) h0 (h1.trans (by decide))) h2

section
variable {s s' : State} (h : s.Inv)
include h

theorem inv_ldcalA (hs : stepLdcalA s = .ok s') : s'.Inv := by
  obtain ⟨-, -, rfl⟩ := stepLdcalA_ok hs
  exact { h with
    pendHead := pendHead_congr h rfl rfl rfl
    fineWritten := fun hv => (Bool.false_ne_true hv).elim
    calUnloaded := fun hd => nomatch hd
    calLastA := fun hv => by simpa [State.calFromBurstA] using h.calLastA hv }

theorem inv_ldcalB (hv : s.build.variant = .b) (hs : stepLdcalB s = .ok s') : s'.Inv := by
  obtain ⟨-, -, rfl⟩ := stepLdcalB_ok hs
  exact { h with
    pendHead := pendHead_congr h rfl rfl rfl
    fineWritten := fun hv => (Bool.false_ne_true hv).elim
    calUnloaded := fun hd => nomatch hd
    calLastA := fun ha => nomatch hv.symm.trans ha }

/-- A raw sample of at most 20 bits may be written (R28). -/
theorem inv_rawSamples {t p : Option Word} (ht : rawInRange t = true) (hp : rawInRange p = true) :
    State.Inv { s with rawT := t, rawP := p } :=
  { h with pendHead := pendHead_congr h rfl rfl rfl, rawT20 := ht, rawP20 := hp }

/-- The outputs stand in no clause. -/
theorem inv_outputs (t p : Option Word) : State.Inv { s with tOut := t, pOut := p } :=
  { h with pendHead := pendHead_congr h rfl rfl rfl }

theorem inv_temperature (hc : s.calOk = true) (f : Word) (t : Option Word) :
    State.Inv { s with fine := some f, tOut := t, fineValid := true } :=
  { h with pendHead := pendHead_congr h rfl rfl rfl, fineWritten := fun _ => ⟨hc, rfl⟩ }

theorem inv_pressure (p : Option Word) : State.Inv { s with pOut := p, fineValid := false } :=
  { h with pendHead := pendHead_congr h rfl rfl rfl, fineWritten := fun hv => (Bool.false_ne_true hv).elim }

/-- A step done at once keeps the invariant. -/
theorem inv_done {m : MStep} (hb : m.builtIn s.build.variant = true) (hd : action m s = .done s') : s'.Inv := by
  cases m <;> simp only [action] at hd
  case requireIdle | requireUninit => split at hd <;> cases hd; exact h
  case start => unfold requestStart at hd; split at hd <;> cases hd
  case wrb => unfold requestWrb at hd; split at hd <;> cases hd
  case rda | rdnk => unfold requestRead at hd; split at hd <;> cases hd
  case stop => unfold requestStop at hd; split at hd <;> cases hd
  case delay => cases hd
  case latchRx16 =>
    obtain ⟨_, _, -, -, rfl⟩ := stepLatchRx16_ok (internal_done hd)
    exact { h with pendHead := pendHead_congr h rfl rfl rfl }
  case ldcalA => exact inv_ldcalA h (internal_done hd)
  case ldcalB => exact inv_ldcalB h (by simpa [MStep.builtIn] using hb) (internal_done hd)
  case packAt =>
    obtain ⟨-, rfl⟩ := stepPackAt_ok (internal_done hd)
    exact inv_rawSamples h (packAt_in_range _ _) h.rawP20
  case packAp =>
    obtain ⟨-, rfl⟩ := stepPackAp_ok (internal_done hd)
    exact inv_rawSamples h h.rawT20 (packAp_in_range _ _ _)
  case unpackB =>
    obtain ⟨-, rfl⟩ := stepUnpackB_ok (internal_done hd)
    exact inv_rawSamples h (pack20_in_range _ _ _) (pack20_in_range _ _ _)
  case compAt =>
    obtain ⟨-, rfl⟩ | ⟨hc, _, _, rfl⟩ := stepCompAt_ok (internal_done hd)
    · exact inv_outputs h _ _
    · exact inv_temperature h hc _ _
  case compBt =>
    obtain ⟨-, rfl⟩ | ⟨hc, _, _, rfl⟩ := stepCompBt_ok (internal_done hd)
    · exact inv_outputs h _ _
    · exact inv_temperature h hc _ _
  case compAp =>
    obtain ⟨_, rfl⟩ := stepCompAp_ok (internal_done hd)
    exact inv_pressure h _
  case compBp =>
    obtain ⟨_, rfl⟩ := stepCompBp_ok (internal_done hd)
    exact inv_pressure h _
  case setReady =>
    obtain rfl := Action.done.inj hd
    exact { h with pendHead := pendHead_congr h rfl rfl rfl, calUnloaded := fun hu => nomatch hu }
  case zeroOutputs =>
    obtain rfl := Action.done.inj hd
    exact inv_outputs h _ _

end

/-! ### Faults (R240) -/

/-- A formula's faults: Overflow where an exact result is out of range under `fault`, otherwise those under `wrap`. -/
theorem formula_error_ne_none {α : Type} {formula : OverflowMode → Except FaultCode α} {exact : List Int} {fits : Int → Prop}
    (hover : (∃ v ∈ exact, ¬ fits v) → formula .fault = .error .overflow)
    (hagree : (∀ v ∈ exact, fits v) → formula .fault = formula .wrap)
    (hwrap : ∀ c, formula .wrap = .error c → c ≠ .none) {m : OverflowMode} {c : FaultCode} (h : formula m = .error c) :
    c ≠ .none := by
  cases m with
  | wrap => exact hwrap c h
  | fault =>
    by_cases hfits : ∀ v ∈ exact, fits v
    · exact hwrap c (hagree hfits ▸ h)
    · rw [hover (by simpa using hfits)] at h
      cases h
      decide

section
variable {m : OverflowMode} {c : FaultCode}

theorem calcAT_error_ne_none {ut ac5 ac6 mc md : Int} (h : calcAT m ut ac5 ac6 mc md = .error c) : c ≠ .none := by
  obtain ⟨-, hAT, -⟩ := overflowModesAgree
  obtain ⟨hover, hagree, hwrap⟩ := hAT ut ac5 ac6 mc md
  exact formula_error_ne_none (formula := fun m => calcAT m ut ac5 ac6 mc md) hover hagree
    (fun c hc => by simp [hwrap c hc]) h

theorem calcAP_error_ne_none {up b5 ac1 ac2 ac3 ac4 b1 b2 : Int}
    (h : calcAP m up b5 ac1 ac2 ac3 ac4 b1 b2 = .error c) : c ≠ .none := by
  obtain ⟨-, -, hAP, -⟩ := overflowModesAgree
  obtain ⟨hover, hagree, hwrap⟩ := hAP up b5 ac1 ac2 ac3 ac4 b1 b2
  exact formula_error_ne_none (formula := fun m => calcAP m up b5 ac1 ac2 ac3 ac4 b1 b2) hover hagree
    (fun c hc => by simp [hwrap c hc]) h

theorem calcBT_error_ne_none {adcT t1 t2 t3 : Int} (h : calcBT m adcT t1 t2 t3 = .error c) : c ≠ .none := by
  obtain ⟨-, -, -, hBT, -⟩ := overflowModesAgree
  obtain ⟨hover, hagree, r, hr⟩ := hBT adcT t1 t2 t3
  exact formula_error_ne_none (formula := fun m => calcBT m adcT t1 t2 t3) hover hagree
    (fun c hc => by simp [hr] at hc) h

theorem calcBP_error_ne_none {adcP f p1 p2 p3 p4 p5 p6 p7 p8 p9 : Int}
    (h : calcBP m adcP f p1 p2 p3 p4 p5 p6 p7 p8 p9 = .error c) : c ≠ .none := by
  obtain ⟨-, -, -, -, hBP⟩ := overflowModesAgree
  obtain ⟨hover, hagree, r, hr⟩ := hBP adcP f p1 p2 p3 p4 p5 p6 p7 p8 p9
  exact formula_error_ne_none (formula := fun m => calcBP m adcP f p1 p2 p3 p4 p5 p6 p7 p8 p9) hover hagree
    (fun c hc => by simp [hr] at hc) h

theorem storeTemperature_error {r : Except FaultCode (Int × Int)} {s : State} (h : storeTemperature r s = .error c) :
    r = .error c := by
  cases r with
  | error _ => exact congrArg _ (Except.error.inj h)
  | ok v => cases h

theorem storePressure_error {r : Except FaultCode Int} {s : State} (h : storePressure r s = .error c) : r = .error c := by
  cases r with
  | error _ => exact congrArg _ (Except.error.inj h)
  | ok v => cases h

theorem stepCompAt_error {s : State} (h : stepCompAt s = .error c) : c ≠ .none := by
  unfold stepCompAt at h
  split at h
  · cases h
  · split at h
    · cases h; decide
    · exact calcAT_error_ne_none (storeTemperature_error h)

theorem stepCompBt_error {s : State} (h : stepCompBt s = .error c) : c ≠ .none := by
  unfold stepCompBt at h
  split at h
  · cases h
  · split at h
    · cases h; decide
    · exact calcBT_error_ne_none (storeTemperature_error h)

theorem stepCompAp_error {s : State} (h : stepCompAp s = .error c) : c ≠ .none := by
  unfold stepCompAp at h
  split at h
  · cases h
  · split at h
    · cases h; decide
    · split at h
      · exact calcAP_error_ne_none (storePressure_error h)
      · cases h; decide

theorem stepCompBp_error {s : State} (h : stepCompBp s = .error c) : c ≠ .none := by
  unfold stepCompBp at h
  split at h
  · cases h
  · split at h
    · cases h; decide
    · split at h
      · exact calcBP_error_ne_none (storePressure_error h)
      · cases h; decide

theorem stepLdcalA_error {s : State} (h : stepLdcalA s = .error c) : c ≠ .none := by
  unfold stepLdcalA at h
  split at h
  · cases h; decide
  · split at h <;> cases h; decide

theorem stepLdcalB_error {s : State} (h : stepLdcalB s = .error c) : c ≠ .none := by
  unfold stepLdcalB at h
  split at h
  · cases h; decide
  · split at h <;> cases h; decide

/-- A step that faults records a code (R240). -/
theorem action_fail_ne_none {k : MStep} {s : State} (h : action k s = .fail c) : c ≠ .none := by
  cases k <;> simp only [action] at h
  case requireIdle | requireUninit => split at h <;> cases h; decide
  case start => unfold requestStart at h; split at h <;> cases h <;> decide
  case wrb => unfold requestWrb at h; split at h <;> cases h <;> decide
  case rda | rdnk => unfold requestRead at h; split at h <;> cases h <;> decide
  case stop => unfold requestStop at h; split at h <;> cases h <;> decide
  case latchRx16 => unfold stepLatchRx16 at h; split at h <;> cases h; decide
  case packAt => unfold stepPackAt at h; split at h <;> cases h; decide
  case packAp => unfold stepPackAp at h; split at h <;> cases h; decide
  case unpackB => unfold stepUnpackB at h; split at h <;> cases h; decide
  case ldcalA => exact stepLdcalA_error (internal_fail h)
  case ldcalB => exact stepLdcalB_error (internal_fail h)
  case compAt => exact stepCompAt_error (internal_fail h)
  case compAp => exact stepCompAp_error (internal_fail h)
  case compBt => exact stepCompBt_error (internal_fail h)
  case compBp => exact stepCompBp_error (internal_fail h)
  case delay | setReady | zeroOutputs => cases h

end

/-! ### Runs, commands, steps -/

/-- A run from the steps the block holds, no request outstanding, keeps the invariant. -/
theorem inv_run {s : State} (h : s.Inv) {seq : List MStep} (hm : s.mseq = seq) (hp : s.pend = none) : (run seq s).Inv := by
  refine run_keeps (P := State.Inv) (fun u l hu => inv_outside hu l u.hostData u.draws)
    (fun m rest u c _ _ hf hu => inv_raise hu (action_fail_ne_none hf) _)
    (fun m rest u u' hm hp hd hu => ?_) (fun m rest u sym hm _ ha hu => inv_issue hu hm ha)
    (fun m rest u sym ack d hm _ ha hu => inv_completed hu hm ha ack d) seq s hm hp h
  have hbuilt := hu.seqBuilt
  rw [hm, List.all_cons, Bool.and_eq_true] at hbuilt
  have hu' := inv_done hu hbuilt.1 hd
  have hframe := action_done hd
  exact inv_retire hu' (by rw [hframe]; exact hp) (m := m) (by rw [hframe]; exact hm)

theorem inv_takeCompletion {s : State} (h : s.Inv) (ack : Bool) (d : Byte) : (takeCompletion ack d s).Inv := by
  unfold takeCompletion
  split
  · rename_i sym m rest hp hm
    obtain ⟨m', rest', hm', ha⟩ := h.pendHead sym hp
    obtain ⟨rfl, rfl⟩ : m' = m ∧ rest' = rest := by simpa [hm] using hm'.symm
    refine inv_run (inv_completed h hm ha ack d) (State.retire_mseq _ _) ?_
    rw [completed, State.retire_pend, effect_frame]
    rfl
  · exact h
  · exact h

theorem inv_exec {i : Instr} {s t : State} (h : s.Inv) (ht : exec i s = .next t) : t.Inv := by
  rw [exec_eq_command] at ht
  obtain rfl := Host.Outcome.next.inj ht
  obtain ⟨-, hc⟩ | ⟨-, -, hc⟩ | ⟨-, -, -, hc⟩ | ⟨hf, hb, ha, hc⟩ := command_cases i (stepsOf s.build s.calOk i) s <;>
    rw [hc]
  · exact h
  · exact inv_raise h (by decide) _
  · exact inv_raise h (by decide) _
  · obtain ⟨hw, hv⟩ : i.wf = true ∧ i.builtIn s.build.variant = true := by simpa [Instr.admitted] using ha
    have hown := stepsOf_own s.build s.calOk hw
    refine inv_run (inv_accept h hf hb _ (stepsOf_ne_nil _ _ i) (fun m hm => (hown m hm).inBuffer hw)
      (fun m hm => (hown m hm).builtIn hv)) rfl ?_
    exact (idle_of_inv h hb).2

theorem inv_hardReset {s : State} (h : s.Inv) : s.hardReset.Inv :=
  inv_outside (inv_resetOf h.buildWf) s.inputs s.hostData s.draws

/-- Settles O4: every operation a step is made of keeps the invariant. -/
theorem invariantKeptByStep : Obligations.InvariantKeptByStep := by
  unfold Obligations.InvariantKeptByStep
  intro s t hs
  exact step_keeps (P := State.Inv) (fun v u hu => inv_outside hu u.inputs (some v) u.draws)
    (fun mask u hu => inv_outside hu u.inputs _ _) (fun c w u hc hu => inv_raise hu hc w)
    (fun u hu => resume_keeps (fun hp => inv_run hu rfl hp) hu) (fun i u v hu hv => inv_exec hu hv)
    (fun l u hu => inv_outside hu l u.hostData u.draws) (fun ack d u hu => inv_takeCompletion hu ack d)
    (fun more _ => inv_hardReset (inv_outside hs more s.hostData s.draws)) hs

end Sys2Proof.Proofs.Invariant
end

section
/-! PROOFS. What the host sees: the STATUS and XFER words (R23, R30), the reset values (R39), reads of the register map (R22)
and the handshake of an accepted command (R24). -/

namespace Sys2Proof.Proofs.HostView

open Sys2Proof Sys2Proof.Machine Sys2Proof.Proofs.Steps

/-! ### STATUS and XFER -/

theorem tstateCode_toNat (t : TState) :
    t.code.toNat = match t with | .idle => 0 | .started => 1 | .tx => 2 | .rx => 3 | .rxend => 4 := by
  cases t <;> rfl

theorem drvCode_toNat (d : DrvState) :
    d.code.toNat = match d with | .uninit => 0 | .calLoaded => 1 | .ready => 2 := by
  cases d <;> rfl

theorem faultCode_toNat (c : FaultCode) :
    c.code.toNat = match c with
      | .none => 0
      | .illegalCommand => 1
      | .protocolViolation => 2
      | .cmdWhileBusy => 3
      | .staleFine => 4
      | .divideByZero => 5
      | .calReload => 6
      | .overflow => 7
      | .unwrittenOperand => 8
      | .illegalAccess => 9 := by
  cases c <;> rfl

theorem variantBit_toNat (v : Variant) : (variantBit v).toNat = match v with | .a => 0 | .b => 1 := by
  cases v <;> rfl

theorem dirBit_toNat (d : Dir) : d.bit.toNat = match d with | .write => 0 | .read => 1 := by
  cases d <;> rfl

/-- STATUS is the sum of its fields, each at its place (R23). -/
theorem statusWord_toNat (s : State) : s.statusWord.toNat =
    s.busy.toNat + 2 * s.done.toNat + 4 * s.faulted.toNat + 2 ^ 4 * s.tstate.code.toNat + 2 ^ 8 * s.drvState.code.toNat
      + 2 ^ 10 * s.calOk.toNat + 2 ^ 11 * s.fineValid.toNat + 2 ^ 16 * s.faultCode.code.toNat
      + 2 ^ 20 * (variantBit s.build.variant).toNat := by
  simp only [State.statusWord, toNat_append_add, BitVec.toNat_ofBool, BitVec.ofNat_eq_ofNat, BitVec.toNat_ofNat]
  omega

/-- XFER is the sum of its fields, each at its place (R30). -/
theorem xferWord_toNat (s : State) : s.xferWord.toNat = s.curAddr.toNat + 2 ^ 8 * s.curDir.bit.toNat := by
  simp only [State.xferWord, toNat_append_add, BitVec.ofNat_eq_ofNat, BitVec.toNat_ofNat]
  omega

/-- Settles O17: the words are concatenations, and each field's code is the number of its value. -/
theorem statusAndXferLayout : Obligations.StatusAndXferLayout := by
  unfold Obligations.StatusAndXferLayout
  intro s
  rw [statusWord_toNat, xferWord_toNat, tstateCode_toNat, drvCode_toNat, faultCode_toNat, variantBit_toNat,
    dirBit_toNat]
  exact ⟨rfl, rfl⟩

/-! ### Reset -/

theorem resetOf_statusWord (b : Build) :
    (State.resetOf b).statusWord = (match b.variant with | .a => 0x00000000 | .b => 0x00100000) := by
  cases h : b.variant <;> simp only [State.statusWord, State.resetOf, h] <;> rfl

theorem resetOf_xferWord (b : Build) : (State.resetOf b).xferWord = 0 := by
  simp only [State.xferWord, State.resetOf]
  rfl

theorem resetOf_rx (b : Build) (i : Nat) : (State.resetOf b).rx i = none := by
  simp only [State.rx, State.resetOf, Vector.getElem?_replicate]
  split <;> rfl

/-- Settles O1: the reset state's fields are the values of R39. -/
theorem resetValues : Obligations.ResetValues := by
  unfold Obligations.ResetValues
  intro b
  exact ⟨resetOf_statusWord b, rfl, rfl, rfl, rfl, rfl, rfl, rfl, rfl, resetOf_xferWord b, resetOf_rx b,
    fun k => Vector.getElem_replicate k.isLt, rfl, rfl, rfl, rfl⟩

/-! ### The handshake -/

/-- A run that a `hold` stops before its first move changes nothing (log 2). -/
theorem run_held {s : State} {more : List Input} (hi : s.inputs = .hold 0 :: more) (seq : List MStep) : run seq s = s := by
  cases seq with
  | nil => rfl
  | cons m rest => simp [run, hi, engineTurn]

/-- Settles O20: the command's steps are never empty, and a held engine leaves the accepted command as it is. -/
theorem acceptedCommandIsBusy : Obligations.AcceptedCommandIsBusy := by
  unfold Obligations.AcceptedCommandIsBusy
  intro i s more hf hb hi hw hv
  refine ⟨stepsOf s.build s.calOk i, stepsOf_ne_nil _ _ i, ?_⟩
  have ha : i.admitted s.build.variant = true := by simp [Instr.admitted, hw, hv]
  have hheld : (s.accept (encode i) (stepsOf s.build s.calOk i)).inputs = .hold 0 :: more := hi
  rw [exec_eq_command, command_ready hf hb ha, run_held hheld]
  rfl

/-! ### Reads of the register map (R22) -/

/-- The engine of a block with no steps left has no move to make. -/
theorem resume_idle {s : State} (hm : s.mseq = []) : resume s = s := by
  unfold resume
  split
  · rfl
  · rw [hm]; rfl

@[simp] theorem readReg_mseq (r : HostReg) (s : State) : (readReg r s).mseq = s.mseq := by
  unfold readReg
  split
  · rfl
  · split <;> rfl

section
variable {s : State} {more : List Input} {off : Word} {r : HostReg}
  (hb : s.busy = false) (hm : s.mseq = []) (hi : s.inputs = .access (.read off 4) :: more)
  (hr : hostReg? off = some r) (hcmd : r ≠ .cmd)
include hm hi hr hcmd

/-- A mapped register but CMD, read while the block has no steps left. -/
theorem step_read_idle : step s = .next (readReg r (s.withInputs more)) := by
  have hidle : resume (readReg r (s.withInputs more)) = readReg r (s.withInputs more) :=
    resume_idle ((readReg_mseq r _).trans hm)
  cases r
  case cmd => exact absurd rfl hcmd
  all_goals simp only [step, advance, hi, hostAccess, hr, if_true, hidle]

include hb

theorem step_read_written {v : Word} (hv : s.regContents r = some v) :
    step s = .next { s with inputs := more, hostData := some v } := by
  have hb' : (s.withInputs more).busy = false := hb
  have hv' : (s.withInputs more).regContents r = some v := hv
  rw [step_read_idle hm hi hr hcmd, readReg, hb', hv']
  rfl

theorem step_read_unwritten (hv : s.regContents r = none) :
    step s = .next { s with
      inputs := more, hostData := some (Config.anyWord s.draws &&& r.mask), draws := s.draws + 1 } := by
  have hb' : (s.withInputs more).busy = false := hb
  have hv' : (s.withInputs more).regContents r = none := hv
  rw [step_read_idle hm hi hr hcmd, readReg, hb', hv']
  rfl

end

theorem hostReg?_rxbuf : ∀ i < 32, hostReg? (BitVec.ofNat 32 (0x100 + 4 * i)) = some (.rxbuf i) := by decide

theorem hostReg?_cal : ∀ k : Fin 12, hostReg? (BitVec.ofNat 32 (0x200 + 4 * k.val)) = some (.cal k) := by decide

/-- Settles O18: the offset names its register, which an idle block answers with its contents or a free value. -/
theorem hostReadsRegisterMap : Obligations.HostReadsRegisterMap := by
  unfold Obligations.HostReadsRegisterMap
  intro s more off hb hm hi
  refine ⟨fun v hoff => ?_, fun mask hoff => ?_⟩
  · obtain ⟨r, hr, hcmd, hv⟩ : ∃ r, hostReg? off = some r ∧ r ≠ .cmd ∧ s.regContents r = some v := by
      rcases hoff with ⟨rfl, rfl⟩ | ⟨rfl, b, hx, rfl⟩ | ⟨rfl, h, hx, rfl⟩ | ⟨rfl, hx⟩ | ⟨rfl, hx⟩ | ⟨rfl, hx⟩ | ⟨rfl, hx⟩ |
        ⟨rfl, hx⟩ | ⟨rfl, rfl⟩ | ⟨rfl, rfl⟩ | ⟨i, b, hlt, rfl, hx, rfl⟩ | ⟨k, rfl, rfl⟩
      · exact ⟨.status, rfl, by simp, rfl⟩
      · exact ⟨.rxdata, rfl, by simp, congrArg (Option.map _) hx⟩
      · exact ⟨.rx16, rfl, by simp, congrArg (Option.map _) hx⟩
      · exact ⟨.rawT, rfl, by simp, hx⟩
      · exact ⟨.rawP, rfl, by simp, hx⟩
      · exact ⟨.fine, rfl, by simp, hx⟩
      · exact ⟨.tOut, rfl, by simp, hx⟩
      · exact ⟨.pOut, rfl, by simp, hx⟩
      · exact ⟨.faultCmd, rfl, by simp, rfl⟩
      · exact ⟨.xfer, rfl, by simp, rfl⟩
      · exact ⟨.rxbuf i, hostReg?_rxbuf i hlt, by simp, congrArg (Option.map _) hx⟩
      · exact ⟨.cal k, hostReg?_cal k, by simp, by simp [State.regContents]⟩
    exact step_read_written hb hm hi hr hcmd hv
  · obtain ⟨r, hr, hcmd, hv, rfl⟩ : ∃ r, hostReg? off = some r ∧ r ≠ .cmd ∧ s.regContents r = none ∧ r.mask = mask := by
      rcases hoff with ⟨rfl, hx, rfl⟩ | ⟨rfl, hx, rfl⟩ |
        ⟨rfl, ⟨rfl, hx⟩ | ⟨rfl, hx⟩ | ⟨rfl, hx⟩ | ⟨rfl, hx⟩ | ⟨rfl, hx⟩⟩ | ⟨rfl, i, hlt, rfl, hx⟩
      · exact ⟨.rxdata, rfl, by simp, congrArg (Option.map _) hx, rfl⟩
      · exact ⟨.rx16, rfl, by simp, congrArg (Option.map _) hx, rfl⟩
      · exact ⟨.rawT, rfl, by simp, hx, rfl⟩
      · exact ⟨.rawP, rfl, by simp, hx, rfl⟩
      · exact ⟨.fine, rfl, by simp, hx, rfl⟩
      · exact ⟨.tOut, rfl, by simp, hx, rfl⟩
      · exact ⟨.pOut, rfl, by simp, hx, rfl⟩
      · exact ⟨.rxbuf i, hostReg?_rxbuf i hlt, by simp, congrArg (Option.map _) hx, rfl⟩
    exact step_read_unwritten hb hm hi hr hcmd hv

end Sys2Proof.Proofs.HostView
end

section
/-! PROOFS. Reads of the register map while BUSY = 1 (R71): what is returned, and that the engine goes on after the read only if
no request is outstanding (log 2). -/

namespace Sys2Proof.Proofs.BusyReads

open Sys2Proof Sys2Proof.Machine Sys2Proof.Proofs.Step Sys2Proof.Proofs.HostView

/-! ### The engine after an input -/

/-- An engine that waits for the environment does not go on by itself (R106). -/
theorem resume_waiting {s : State} (hp : s.pend ≠ none) : resume s = s := by
  unfold resume
  split
  · rfl
  · next hnone => exact absurd hnone hp

theorem resume_moving {s : State} (hp : s.pend = none) : resume s = run s.mseq s := by
  rw [resume, hp]

/-! ### What a read returns -/

@[simp] theorem readReg_pend (r : HostReg) (s : State) : (readReg r s).pend = s.pend :=
  readReg_keeps (P := fun u => u.pend = s.pend) (fun _ _ h => h) (fun _ _ h => h) r rfl

theorem readReg_busy_result {s : State} {r : HostReg} (hb : s.busy = true) (hr : r.isResult = true) :
    readReg r s = s.returnAny r.mask := by
  simp [readReg, hb, hr]

theorem readReg_not_result {s : State} {r : HostReg} {v : Word} (hr : r.isResult = false)
    (hv : s.regContents r = some v) : readReg r s = s.returnWord v := by
  simp [readReg, hr, hv]

/-! ### A read as a step -/

section
variable {s : State} {more : List Input} {off : Word} {r : HostReg}
  (hi : s.inputs = .access (.read off 4) :: more) (hr : hostReg? off = some r) (hcmd : r ≠ .cmd)
include hi hr hcmd

/-- A read of a mapped register but CMD, after which the engine goes on if it can (R22, R67; log 2). -/
theorem step_read : step s = .next (resume (readReg r (s.withInputs more))) := by
  cases r
  case cmd => exact absurd rfl hcmd
  all_goals simp only [step, advance, hi, hostAccess, hr, if_true]

theorem step_read_waiting (hp : s.pend ≠ none) : step s = .next (readReg r (s.withInputs more)) := by
  rw [step_read hi hr hcmd, resume_waiting]
  rwa [readReg_pend]

theorem step_read_moving (hp : s.pend = none) :
    step s = .next (run s.mseq (readReg r (s.withInputs more))) := by
  rw [step_read hi hr hcmd, resume_moving, readReg_mseq, State.withInputs_mseq]
  rwa [readReg_pend]

end

/-- Settles O19: the offset names its register; a result register answers a busy block with a free value, any other with its
contents, and the engine goes on after the read only if no request is outstanding. -/
theorem hostReadsWhileBusy : Obligations.HostReadsWhileBusy := by
  unfold Obligations.HostReadsWhileBusy
  intro s u more off hb hi hu
  have hb' : (s.withInputs more).busy = true := hb
  obtain ⟨r, hr, hcmd, rfl⟩ : ∃ r, hostReg? off = some r ∧ r ≠ .cmd ∧ readReg r (s.withInputs more) = u := by
    rcases hu with ⟨v, rfl, hoff⟩ | ⟨mask, rfl, hoff⟩
    · rcases hoff with ⟨rfl, rfl⟩ | ⟨rfl, rfl⟩ | ⟨rfl, rfl⟩ | ⟨k, rfl, rfl⟩
      · exact ⟨.status, rfl, by simp, readReg_not_result rfl rfl⟩
      · exact ⟨.faultCmd, rfl, by simp, readReg_not_result rfl rfl⟩
      · exact ⟨.xfer, rfl, by simp, readReg_not_result rfl rfl⟩
      · exact ⟨.cal k, hostReg?_cal k, by simp, readReg_not_result rfl (by simp [State.regContents])⟩
    · simp only [List.mem_cons, List.not_mem_nil, or_false] at hoff
      rcases hoff with ⟨rfl | rfl | rfl | rfl | rfl, rfl⟩ | ⟨rfl, rfl⟩ | ⟨rfl | ⟨i, hlt, rfl⟩, rfl⟩
      · exact ⟨.rawT, rfl, by simp, readReg_busy_result hb' rfl⟩
      · exact ⟨.rawP, rfl, by simp, readReg_busy_result hb' rfl⟩
      · exact ⟨.fine, rfl, by simp, readReg_busy_result hb' rfl⟩
      · exact ⟨.tOut, rfl, by simp, readReg_busy_result hb' rfl⟩
      · exact ⟨.pOut, rfl, by simp, readReg_busy_result hb' rfl⟩
      · exact ⟨.rx16, rfl, by simp, readReg_busy_result hb' rfl⟩
      · exact ⟨.rxdata, rfl, by simp, readReg_busy_result hb' rfl⟩
      · exact ⟨.rxbuf i, hostReg?_rxbuf i hlt, by simp, readReg_busy_result hb' rfl⟩
  exact ⟨step_read_waiting hi hr hcmd, step_read_moving hi hr hcmd⟩

end Sys2Proof.Proofs.BusyReads
end

section
/-! PROOFS. The encoding (R80 to R88): the word of a command is its fields, a word decodes exactly if it is the word of a
well-formed command, the opcode table admits exactly those words, and what a CMD write of a word then does (R86, R90). -/

namespace Sys2Proof.Proofs.Encoding

open Sys2Proof Sys2Proof.Machine Sys2Proof.Proofs.Steps

/-! ### The operands of a command (R81) -/

/-- ADDR7 of a command's word, 0 if the command has none. -/
def addrOf : Instr → Addr7
  | .rd1 a _ _ | .rd2 a _ _ | .rdburst a _ _ | .wr1 a _ _ | .setptr a _ | .rdcur a _ => a
  | .initA a | .sampleA a | .initB a | .sampleB a => a
  | _ => 0

/-- REG of a command's word, 0 if the command has none. -/
def regOf : Instr → Byte
  | .rd1 _ r _ | .rd2 _ r _ | .rdburst _ r _ | .wr1 _ r _ | .setptr _ r => r
  | _ => 0

/-- ARG of a command's word, 0 if the command has none. -/
def argOf : Instr → Byte
  | .wrb g | .rda g | .rdnk g | .rd1 _ _ g | .rd2 _ _ g | .rdburst _ _ g | .wr1 _ _ g | .rdcur _ g => g
  | _ => 0

/-- The word of a command is its opcode and its operands (R88). -/
theorem encode_eq_packWord (i : Instr) : encode i = packWord (opcode i) (addrOf i) (regOf i) (argOf i) := by
  cases i <;> rfl

/-- Settles O9: the word packs the opcode and the operands, whose number is a sum. -/
theorem encodingLayout : Obligations.EncodingLayout := by
  unfold Obligations.EncodingLayout
  intro i
  rw [encode_eq_packWord, packWord_toNat]
  cases i <;> simp [addrOf, regOf, argOf, opcode]

/-! ### Decoding -/

/-- A word is packed from the fields it is read as, with RSV 0 (R80). -/
theorem eq_packWord_iff {w : Word} {op : Byte} {a : Addr7} {r g : Byte} :
    w = packWord op a r g ↔
      fieldOp w = op ∧ fieldRsv w = 0 ∧ fieldAddr w = a ∧ fieldReg w = r ∧ fieldArg w = g := by
  constructor
  · rintro rfl
    simp
  · rintro ⟨rfl, hrsv, rfl, rfl, rfl⟩
    exact (packWord_fields w hrsv).symm

/-- The opcode and the operands of a command name it, and its unused fields are 0 (R83). -/
theorem assemble_operands (i : Instr) :
    assemble (opcode i) (addrOf i) (regOf i) (argOf i) = some i ∧ unusedZero i (addrOf i) (regOf i) (argOf i) = true := by
  cases i <;> exact ⟨rfl, rfl⟩

/-- The command that fields name has their opcode, and exactly their operands if the unused fields are 0 (R83): the one
inversion of `assemble`. -/
theorem operands_of_assemble {op : Byte} {a : Addr7} {r g : Byte} {i : Instr} (h : assemble op a r g = some i) :
    op = opcode i ∧ (unusedZero i a r g = true ↔ a = addrOf i ∧ r = regOf i ∧ g = argOf i) := by
  unfold assemble at h
  split at h
  case h_25 => cases h
  all_goals
    next hop =>
      obtain rfl := Option.some.inj h
      refine ⟨BitVec.eq_of_toNat_eq hop, ?_⟩
      simp [unusedZero, fieldsUsed, addrOf, regOf, argOf, and_assoc]

/-- R86 items 1 to 4: what a word must meet to decode. -/
theorem decode_eq_ok_iff_checks {w : Word} {i : Instr} :
    decode w = .ok i ↔
      assemble (fieldOp w) (fieldAddr w) (fieldReg w) (fieldArg w) = some i ∧ fieldRsv w = 0 ∧
        unusedZero i (fieldAddr w) (fieldReg w) (fieldArg w) = true ∧ i.wf = true := by
  unfold decode
  cases assemble (fieldOp w) (fieldAddr w) (fieldReg w) (fieldArg w) with
  | none => simp
  | some j =>
    simp only [Option.some.injEq]
    constructor
    · intro h
      split_ifs at h with hrsv hz hwf
      obtain rfl := Except.ok.inj h
      exact ⟨rfl, not_not.1 hrsv, by simpa using hz, by simpa using hwf⟩
    · rintro ⟨rfl, hrsv, hz, hwf⟩
      simp [hrsv, hz, hwf]

/-- A word decodes exactly if it is the word of a well-formed command (R80, R83, R84, R86). -/
theorem decode_eq_ok_iff {w : Word} {i : Instr} : decode w = .ok i ↔ w = encode i ∧ i.wf = true := by
  rw [decode_eq_ok_iff_checks, encode_eq_packWord, eq_packWord_iff]
  constructor
  · rintro ⟨has, hrsv, hz, hwf⟩
    obtain ⟨hop, hoperands⟩ := operands_of_assemble has
    exact ⟨⟨hop, hrsv, hoperands.1 hz⟩, hwf⟩
  · rintro ⟨⟨hop, hrsv, ha, hr, hg⟩, hwf⟩
    obtain ⟨has, hz⟩ := assemble_operands i
    rw [hop, ha, hr, hg]
    exact ⟨has, hrsv, hz, hwf⟩

/-- Settles O10: the word of a well-formed command is one that decodes. -/
theorem decodeOfEncode : Obligations.DecodeOfEncode := by
  unfold Obligations.DecodeOfEncode
  exact fun i hwf => decode_eq_ok_iff.2 ⟨rfl, hwf⟩

/-- Settles O11: a word that decodes is packed from the fields its command uses. -/
theorem encodeOfDecode : Obligations.EncodeOfDecode := by
  unfold Obligations.EncodeOfDecode
  intro w i h
  obtain ⟨rfl, hwf⟩ := decode_eq_ok_iff.1 h
  exact ⟨rfl, hwf⟩

/-- Settles O8: each word is the word of its command, whose operands are in range. -/
theorem knownWordsDecode : Obligations.KnownWordsDecode := by
  unfold Obligations.KnownWordsDecode
  and_intros <;> exact decode_eq_ok_iff.2 (by decide)

/-! ### The opcode table (R83, R84) -/

/-- The bits of a word that an opcode fixes: OP, RSV and the unused fields (R83, R86 items 1 to 3). -/
def fixedBits (i : Instr) : Word :=
  let u := fieldsUsed i
  packWord 0xFF (if u.1 then 0 else BitVec.allOnes 7) (if u.2.1 then 0 else BitVec.allOnes 8)
    (if u.2.2 then 0 else BitVec.allOnes 8) ||| 0x8000

/-- The range of a command's ARG (R84). -/
def argRange : Instr → Nat × Nat
  | .rda _ | .rdnk _ | .rd1 _ _ _ => (0, 31)
  | .rd2 _ _ _ => (0, 30)
  | .rdburst _ _ _ | .rdcur _ _ => (1, 32)
  | _ => (0, 255)

/-- The row of the opcode table a command belongs to. -/
def rowOf (i : Instr) : CommandRow :=
  ⟨packWord (opcode i) 0 0 0, fixedBits i, (argRange i).1, (argRange i).2, i.variant?⟩

/-- An opcode names a command of the same row whatever the other fields are. -/
theorem exists_assemble (i : Instr) (a : Addr7) (r g : Byte) :
    ∃ j, assemble (opcode i) a r g = some j ∧ rowOf j = rowOf i := by
  cases i <;> exact ⟨_, rfl, rfl⟩

/-- The table has one row for each opcode that names a command, in their order. -/
theorem commandRows_eq_filterMap :
    commandRows = (List.range 256).filterMap fun n => (assemble (BitVec.ofNat 8 n) 0 0 0).map rowOf := by
  decide

theorem mem_commandRows_iff {row : CommandRow} : row ∈ commandRows ↔ ∃ i, rowOf i = row := by
  simp only [commandRows_eq_filterMap, List.mem_filterMap, List.mem_range, Option.map_eq_some_iff]
  constructor
  · rintro ⟨-, -, i, -, hrow⟩
    exact ⟨i, hrow⟩
  · rintro ⟨i, rfl⟩
    refine ⟨(opcode i).toNat, (opcode i).isLt, ?_⟩
    rw [BitVec.ofNat_toNat, BitVec.setWidth_eq]
    exact exists_assemble i 0 0 0

/-- ARG is the word's top byte (R80). -/
theorem fieldArg_toNat (w : Word) : (fieldArg w).toNat = w.toNat >>> 24 := by
  have := w.isLt
  simp only [fieldArg, BitVec.extractLsb'_toNat, Nat.shiftRight_eq_div_pow]
  omega

/-- R86 item 5 as the table says it. -/
theorem builtIn_iff {i : Instr} {v : Variant} : i.builtIn v = true ↔ i.variant? = none ∨ i.variant? = some v := by
  unfold Instr.builtIn
  cases i.variant? <;> simp

/-- R84 as the table says it. -/
theorem wf_iff_argRange (i : Instr) :
    i.wf = true ↔ (argRange i).1 ≤ (argOf i).toNat ∧ (argOf i).toNat ≤ (argRange i).2 := by
  cases i <;> simp [Instr.wf, argRange, argOf, Config.nmax] <;> omega

/-- A row of the table admits a word in a build of variant `v`. -/
def InRow (row : CommandRow) (v : Variant) (w : Word) : Prop :=
  w &&& row.mask = row.pattern ∧ (row.argMin ≤ (fieldArg w).toNat ∧ (fieldArg w).toNat ≤ row.argMax) ∧
    (row.variant = none ∨ row.variant = some v)

theorem legalWord_iff {v : Variant} {w : Word} : legalWord v w = true ↔ ∃ i, InRow (rowOf i) v w := by
  simp [legalWord, mem_commandRows_iff, InRow, fieldArg_toNat, and_assoc]

/-! #### The bits a row fixes -/

@[simp] theorem fieldOp_and (x y : Word) : fieldOp (x &&& y) = fieldOp x &&& fieldOp y := BitVec.extractLsb'_and
@[simp] theorem fieldAddr_and (x y : Word) : fieldAddr (x &&& y) = fieldAddr x &&& fieldAddr y := BitVec.extractLsb'_and
@[simp] theorem fieldRsv_and (x y : Word) : fieldRsv (x &&& y) = fieldRsv x &&& fieldRsv y := BitVec.extractLsb'_and
@[simp] theorem fieldReg_and (x y : Word) : fieldReg (x &&& y) = fieldReg x &&& fieldReg y := BitVec.extractLsb'_and
@[simp] theorem fieldArg_and (x y : Word) : fieldArg (x &&& y) = fieldArg x &&& fieldArg y := BitVec.extractLsb'_and

/-- Of each field an opcode fixes every bit or, of a field the command uses, none. -/
theorem fields_fixedBits (i : Instr) :
    fieldOp (fixedBits i) = BitVec.allOnes 8 ∧ fieldRsv (fixedBits i) = BitVec.allOnes 1 ∧
      fieldAddr (fixedBits i) = (if (fieldsUsed i).1 then 0 else BitVec.allOnes 7) ∧
      fieldReg (fixedBits i) = (if (fieldsUsed i).2.1 then 0 else BitVec.allOnes 8) ∧
      fieldArg (fixedBits i) = (if (fieldsUsed i).2.2 then 0 else BitVec.allOnes 8) := by
  unfold fixedBits
  generalize fieldsUsed i = u
  revert u
  decide

/-- The bits of a word that an opcode fixes are the opcode's if OP is that opcode, RSV is 0 and the unused fields are 0. -/
theorem and_fixedBits_eq_iff {w : Word} {i : Instr} {op : Byte} :
    w &&& fixedBits i = packWord op 0 0 0 ↔
      fieldOp w = op ∧ fieldRsv w = 0 ∧ unusedZero i (fieldAddr w) (fieldReg w) (fieldArg w) = true := by
  obtain ⟨hop, hrsv, ha, hr, hg⟩ := fields_fixedBits i
  have hfield : ∀ {n : Nat} (used : Bool) (x : BitVec n),
      (x &&& (if used then 0 else BitVec.allOnes n)) = 0 ↔ used = true ∨ x = 0 := by
    intro n used x
    cases used <;> simp
  simp only [eq_packWord_iff, fieldOp_and, fieldRsv_and, fieldAddr_and, fieldReg_and, fieldArg_and, hop, hrsv, ha, hr, hg,
    BitVec.and_allOnes, hfield, unusedZero, Bool.and_eq_true, Bool.or_eq_true, beq_iff_eq, and_assoc]

/-- Of a word whose fields name a command, the row of that command says what the decoder and R86 item 5 check. -/
theorem inRow_iff {v : Variant} {w : Word} {i : Instr}
    (has : assemble (fieldOp w) (fieldAddr w) (fieldReg w) (fieldArg w) = some i) :
    InRow (rowOf i) v w ↔ decode w = .ok i ∧ i.builtIn v = true := by
  obtain ⟨hop, hoperands⟩ := operands_of_assemble has
  have hwf : unusedZero i (fieldAddr w) (fieldReg w) (fieldArg w) = true →
      (i.wf = true ↔ (argRange i).1 ≤ (fieldArg w).toNat ∧ (fieldArg w).toNat ≤ (argRange i).2) := fun hz => by
    obtain ⟨-, -, hg⟩ := hoperands.1 hz
    rw [wf_iff_argRange, hg]
  constructor
  · rintro ⟨hfixed, harg, hv⟩
    obtain ⟨-, hrsv, hz⟩ := and_fixedBits_eq_iff.1 hfixed
    exact ⟨decode_eq_ok_iff_checks.2 ⟨has, hrsv, hz, (hwf hz).2 harg⟩, builtIn_iff.2 hv⟩
  · rintro ⟨hdec, hv⟩
    obtain ⟨-, hrsv, hz, hrange⟩ := decode_eq_ok_iff_checks.1 hdec
    exact ⟨and_fixedBits_eq_iff.2 ⟨hop, hrsv, hz⟩, (hwf hz).1 hrange, builtIn_iff.1 hv⟩

/-- Settles O12: a word of a row has the row's opcode, so its fields name a command of that row, which it decodes to. -/
theorem legalWordsAreTheTable : Obligations.LegalWordsAreTheTable := by
  unfold Obligations.LegalWordsAreTheTable
  intro v w
  rw [legalWord_iff]
  constructor
  · rintro ⟨i, hin⟩
    obtain ⟨hop, -⟩ := and_fixedBits_eq_iff.1 hin.1
    obtain ⟨j, has, hrow⟩ := exists_assemble i (fieldAddr w) (fieldReg w) (fieldArg w)
    rw [← hop] at has
    exact ⟨j, (inRow_iff has).1 (hrow ▸ hin)⟩
  · rintro ⟨i, hdec, hv⟩
    exact ⟨i, (inRow_iff (decode_eq_ok_iff_checks.1 hdec).1).2 ⟨hdec, hv⟩⟩

/-! ### The host's write of a word (R87, R90) -/

/-- A 4-byte write to offset 0 is a write of CMD (R22). -/
theorem step_write_cmd {s : State} {w : Word} {more : List Input} (hi : s.inputs = .access (.write 0 4 w) :: more) :
    step s = writeCmd w (s.withInputs more) := by
  simp only [step, advance, hi]
  rfl

/-- Settles O7: the write of a word that decodes is `exec` of its command. -/
theorem stepRunsDecodedInstruction : Obligations.StepRunsDecodedInstruction := by
  unfold Obligations.StepRunsDecodedInstruction
  intro s w i more hi hdec
  rw [step_write_cmd hi, writeCmd, hdec]
  rfl

/-- A command with an operand out of range or of the other variant, written to an idle block (R86 items 4 and 5, R90 step 3). -/
theorem command_not_admitted {i : Instr} {seq : List MStep} {s : State} (hf : s.faulted = false) (hb : s.busy = false)
    (ha : i.admitted s.build.variant = false) : command i seq s = faultState .illegalCommand (encode i) s := by
  simp only [command, hf, hb, ha]
  rfl

/-- A word that is no command, written to an idle block (R86 items 1 to 4, R90 step 3). -/
theorem illegalWord_idle {w : Word} {s : State} (hf : s.faulted = false) (hb : s.busy = false) :
    illegalWord w s = faultState .illegalCommand w s := by
  simp only [illegalWord, hf, hb]
  rfl

/-- Settles O13: an illegal word does not decode, or is the word of a command of the other variant. -/
theorem illegalWordRaisesIllegalCommand : Obligations.IllegalWordRaisesIllegalCommand := by
  unfold Obligations.IllegalWordRaisesIllegalCommand
  intro s w more hi hf hb hillegal
  rw [step_write_cmd hi, writeCmd]
  cases hdec : decode w with
  | error e => exact congrArg Host.Outcome.next (illegalWord_idle (s := s.withInputs more) hf hb)
  | ok i =>
    obtain ⟨rfl, -⟩ := decode_eq_ok_iff.1 hdec
    have hbuilt : ¬ i.builtIn s.build.variant = true := fun hv =>
      Bool.eq_false_iff.1 hillegal ((legalWordsAreTheTable s.build.variant (encode i)).2 ⟨i, hdec, hv⟩)
    have ha : i.admitted s.build.variant = false := by simp [Instr.admitted, hbuilt]
    exact (exec_eq_command i _).trans (congrArg _ (command_not_admitted hf hb ha))

end Sys2Proof.Proofs.Encoding
end

section
/-! PROOFS. No rule reads a slave's acknowledge bit (R108): every operation a step is made of commutes with taking the bits
away. And no step stops the machine (R106, R243, R244). -/

namespace Sys2Proof.Proofs.Acknowledge

open Sys2Proof Sys2Proof.Machine Sys2Proof.Proofs.Steps

/-! ### The steps of MSEQ read neither the inputs nor TRACE -/

/-- The state with other inputs to come and another trace. -/
def rewired (l : List Input) (tr : List BusEvent) (s : State) : State := { s with inputs := l, trace := tr }

section
variable (l : List Input) (tr : List BusEvent) (s : State)

@[simp] theorem rewired_tstate : (rewired l tr s).tstate = s.tstate := rfl
@[simp] theorem rewired_rawT : (rewired l tr s).rawT = s.rawT := rfl
@[simp] theorem rewired_rawP : (rewired l tr s).rawP = s.rawP := rfl
@[simp] theorem rewired_fine : (rewired l tr s).fine = s.fine := rfl
@[simp] theorem rewired_rx (i : Nat) : (rewired l tr s).rx i = s.rx i := rfl

end

/-- What an action does to a state changed by `f`. -/
def onAction (f : State → State) : Action → Action
  | .done s => .done (f s)
  | .fail c => .fail c
  | .request sym => .request sym

theorem internal_map (f : State → State) (r : Except FaultCode State) : internal (r.map f) = onAction f (internal r) := by
  cases r <;> rfl

section
variable (l : List Input) (tr : List BusEvent) (s : State)

theorem stepLatchRx16_rewired (o : Nat) :
    stepLatchRx16 o (rewired l tr s) = (stepLatchRx16 o s).map (rewired l tr) := by
  simp only [stepLatchRx16, rewired_rx]
  cases s.rx o <;> cases s.rx (o + 1) <;> rfl

theorem stepLdcalA_rewired : stepLdcalA (rewired l tr s) = (stepLdcalA s).map (rewired l tr) := by
  simp only [stepLdcalA, apply_ite (Except.map _)]
  rfl

theorem stepPackAt_rewired : stepPackAt (rewired l tr s) = (stepPackAt s).map (rewired l tr) := by
  simp only [stepPackAt, apply_ite (Except.map _)]
  rfl

theorem stepPackAp_rewired : stepPackAp (rewired l tr s) = (stepPackAp s).map (rewired l tr) := by
  simp only [stepPackAp, apply_ite (Except.map _)]
  rfl

theorem storeTemperature_rewired (r : Except FaultCode (Int × Int)) :
    storeTemperature r (rewired l tr s) = (storeTemperature r s).map (rewired l tr) := by
  cases r <;> rfl

theorem storePressure_rewired (r : Except FaultCode Int) :
    storePressure r (rewired l tr s) = (storePressure r s).map (rewired l tr) := by
  cases r <;> rfl

theorem stepCompAt_rewired : stepCompAt (rewired l tr s) = (stepCompAt s).map (rewired l tr) := by
  simp only [stepCompAt, apply_ite (Except.map _), storeTemperature_rewired, rewired_rawT]
  cases s.rawT <;> rfl

theorem stepCompAp_rewired : stepCompAp (rewired l tr s) = (stepCompAp s).map (rewired l tr) := by
  simp only [stepCompAp, apply_ite (Except.map _), storePressure_rewired, rewired_rawP, rewired_fine]
  cases s.rawP <;> cases s.fine <;> rfl

theorem stepLdcalB_rewired : stepLdcalB (rewired l tr s) = (stepLdcalB s).map (rewired l tr) := by
  simp only [stepLdcalB, apply_ite (Except.map _)]
  rfl

theorem stepUnpackB_rewired : stepUnpackB (rewired l tr s) = (stepUnpackB s).map (rewired l tr) := by
  simp only [stepUnpackB, apply_ite (Except.map _)]
  rfl

theorem stepCompBt_rewired : stepCompBt (rewired l tr s) = (stepCompBt s).map (rewired l tr) := by
  simp only [stepCompBt, apply_ite (Except.map _), storeTemperature_rewired, rewired_rawT]
  cases s.rawT <;> rfl

theorem stepCompBp_rewired : stepCompBp (rewired l tr s) = (stepCompBp s).map (rewired l tr) := by
  simp only [stepCompBp, apply_ite (Except.map _), storePressure_rewired, rewired_rawP, rewired_fine]
  cases s.rawP <;> cases s.fine <;> rfl

/-- No step of MSEQ reads the inputs or TRACE: a bus primitive reads TSTATE, the others their registers (R100 to R105,
R130). -/
theorem action_rewired (m : MStep) : action m (rewired l tr s) = onAction (rewired l tr) (action m s) := by
  cases m
  case requireIdle | requireUninit => simp only [action, apply_ite (onAction _)]; rfl
  case start => simp only [action, requestStart, rewired_tstate]; cases s.tstate <;> rfl
  case wrb => simp only [action, requestWrb, rewired_tstate]; cases s.tstate <;> rfl
  case rda | rdnk => simp only [action, requestRead, rewired_tstate]; cases s.tstate <;> rfl
  case stop => simp only [action, requestStop, rewired_tstate]; cases s.tstate <;> rfl
  case delay | setReady | zeroOutputs => rfl
  all_goals
    simp only [action, ← internal_map, stepLatchRx16_rewired, stepLdcalA_rewired, stepPackAt_rewired, stepPackAp_rewired,
      stepCompAt_rewired, stepCompAp_rewired, stepLdcalB_rewired, stepUnpackB_rewired, stepCompBt_rewired,
      stepCompBp_rewired]

variable {l tr s}

/-- So a change of the inputs and TRACE goes through a step of MSEQ. -/
theorem action_of_rewired {f : State → State}
    (hf : ∀ u, u.inputs = s.inputs → u.trace = s.trace → rewired l tr u = f u) (m : MStep) :
    action m (f s) = onAction f (action m s) := by
  rw [← hf s rfl rfl, action_rewired]
  cases h : action m s with
  | done s' =>
    have hkeep := action_done h
    exact congrArg Action.done (hf s' (by rw [hkeep]) (by rw [hkeep]))
  | fail | request => rfl

end

@[simp] theorem eraseAcks_inputs (s : State) : s.eraseAcks.inputs = s.inputs.map Input.eraseAck := rfl
@[simp] theorem eraseAcks_tstate (s : State) : s.eraseAcks.tstate = s.tstate := rfl
@[simp] theorem eraseAcks_pend (s : State) : s.eraseAcks.pend = s.pend := rfl
@[simp] theorem eraseAcks_mseq (s : State) : s.eraseAcks.mseq = s.mseq := rfl

/-! ### The engine without the acknowledge bits -/

section
variable (s : State)

theorem event_eraseAck (sym : Sym) (ack : Bool) (d : Byte) : (sym.event ack d).eraseAck = sym.event false d := by
  cases sym <;> rfl

theorem engineTurn_eraseAck (l : List Input) :
    engineTurn (l.map Input.eraseAck) = (engineTurn l).map (List.map Input.eraseAck) := by
  cases l with
  | nil => rfl
  | cons i more =>
    cases i with
    | hold n => cases n <;> rfl
    | complete | access | reset => rfl

theorem retire_eraseAcks (rest : List MStep) : s.eraseAcks.retire rest = (s.retire rest).eraseAcks := by
  cases rest <;> rfl

theorem record_eraseAcks (sym : Sym) (ack : Bool) (d : Byte) :
    s.eraseAcks.record (sym.event false d) = (s.record (sym.event ack d)).eraseAcks := by
  simp [State.record, State.eraseAcks, event_eraseAck]

theorem effect_eraseAcks (m : MStep) (d : Byte) : effect m d s.eraseAcks = (effect m d s).eraseAcks := by
  cases m
  case wrb => simp only [effect, eraseAcks_tstate]; cases s.tstate <;> rfl
  all_goals rfl

/-- A completion, whatever its acknowledge bit. -/
theorem completed_eraseAcks (m : MStep) (sym : Sym) (ack : Bool) (d : Byte) (rest : List MStep) :
    completed m sym false d rest s.eraseAcks = (completed m sym ack d rest s).eraseAcks := by
  simp only [completed, record_eraseAcks s sym ack, effect_eraseAcks, retire_eraseAcks]

/-- What a step of MSEQ does, the acknowledge bits aside. -/
theorem action_eraseAcks (m : MStep) : action m s.eraseAcks = onAction State.eraseAcks (action m s) :=
  action_of_rewired (l := s.inputs.map _) (tr := s.trace.map _) (fun u hi htr => by rw [← hi, ← htr]; rfl) m

theorem run_eraseAcks (seq : List MStep) : run seq s.eraseAcks = (run seq s).eraseAcks := by
  induction seq generalizing s with
  | nil => rfl
  | cons m rest ih =>
    simp only [run, eraseAcks_inputs, engineTurn_eraseAck]
    cases engineTurn s.inputs with
    | none => rfl
    | some l =>
      have hl : s.eraseAcks.withInputs (l.map Input.eraseAck) = (s.withInputs l).eraseAcks := rfl
      simp only [Option.map_some, hl, action_eraseAcks]
      cases action m (s.withInputs l) with
      | fail c => rfl
      | done s' => exact (congrArg (run rest) (retire_eraseAcks s' rest)).trans (ih _)
      | request sym =>
        cases l with
        | nil => rfl
        | cons i more =>
          cases i with
          | complete ack d =>
            have hcompleted :=
              completed_eraseAcks (((s.withInputs (.complete ack d :: more)).issue sym).withInputs more) m sym ack d rest
            exact (congrArg (run rest) hcompleted).trans (ih _)
          | access | reset | hold => rfl

theorem resume_eraseAcks : resume s.eraseAcks = (resume s).eraseAcks := by
  simp only [resume, eraseAcks_pend]
  cases s.pend with
  | none => exact run_eraseAcks s s.mseq
  | some sym => rfl

theorem takeCompletion_eraseAcks (ack : Bool) (d : Byte) :
    takeCompletion false d s.eraseAcks = (takeCompletion ack d s).eraseAcks := by
  simp only [takeCompletion, eraseAcks_pend, eraseAcks_mseq]
  cases s.pend with
  | none => rfl
  | some sym =>
    cases s.mseq with
    | nil => rfl
    | cons m rest => exact (congrArg (run rest) (completed_eraseAcks s m sym ack d rest)).trans (run_eraseAcks _ rest)

theorem command_eraseAcks (i : Instr) (seq : List MStep) :
    command i seq s.eraseAcks = (command i seq s).eraseAcks := by
  simp only [command, apply_ite State.eraseAcks, ← run_eraseAcks]
  rfl

/-! ### The host port and the step without the acknowledge bits -/

theorem readReg_eraseAcks (r : HostReg) : readReg r s.eraseAcks = (readReg r s).eraseAcks := by
  have hreg : s.eraseAcks.regContents r = s.regContents r := by cases r <;> rfl
  simp only [readReg, apply_ite State.eraseAcks, hreg]
  cases s.regContents r <;> rfl

theorem illegalAccess_eraseAcks (offset : Word) :
    illegalAccess offset s.eraseAcks = (illegalAccess offset s).eraseAcks := by
  simp only [illegalAccess, apply_ite State.eraseAcks]
  rfl

theorem illegalWord_eraseAcks (w : Word) : illegalWord w s.eraseAcks = (illegalWord w s).eraseAcks := by
  simp only [illegalWord, apply_ite State.eraseAcks]
  rfl

theorem takeHold_eraseAcks (n : Nat) (more : List Input) :
    takeHold n (more.map Input.eraseAck) s.eraseAcks = (takeHold n more s).eraseAcks := by
  simp only [takeHold, apply_ite State.eraseAcks, ← resume_eraseAcks]
  rfl

variable {s} {t : State}

theorem writeCmd_eraseAcks {w : Word} (h : writeCmd w s = .next t) : writeCmd w s.eraseAcks = .next t.eraseAcks := by
  unfold writeCmd at h ⊢
  cases hdec : decode w with
  | error e =>
    rw [hdec] at h
    obtain rfl := Host.Outcome.next.inj h
    exact congrArg Host.Outcome.next (illegalWord_eraseAcks s w)
  | ok i =>
    rw [hdec] at h
    simp only [exec_eq_command] at h ⊢
    obtain rfl := Host.Outcome.next.inj h
    exact congrArg Host.Outcome.next (command_eraseAcks s i _)

theorem hostAccess_eraseAcks {a : HostAccess} (h : hostAccess a s = .next t) :
    hostAccess a s.eraseAcks = .next t.eraseAcks := by
  cases a with
  | write offset bytes data =>
    simp only [hostAccess] at h ⊢
    split_ifs at h ⊢
    · exact writeCmd_eraseAcks h
    · obtain rfl := Host.Outcome.next.inj h
      exact congrArg Host.Outcome.next (illegalAccess_eraseAcks s offset)
  | read offset bytes =>
    simp only [hostAccess] at h ⊢
    split at h <;> obtain rfl := Host.Outcome.next.inj h
    · rw [illegalAccess_eraseAcks]; rfl
    · rw [illegalAccess_eraseAcks]; rfl
    · rw [readReg_eraseAcks, resume_eraseAcks]

/-- The step of a state without its acknowledge bits is the step of the state, without them. -/
theorem step_eraseAcks (h : step s = .next t) : step s.eraseAcks = .next t.eraseAcks := by
  simp only [step, advance, eraseAcks_inputs] at h ⊢
  cases hi : s.inputs with
  | nil =>
    simp only [hi] at h
    obtain rfl := Host.Outcome.next.inj h
    exact congrArg Host.Outcome.next (resume_eraseAcks s)
  | cons i more =>
    simp only [hi] at h
    cases i with
    | hold n =>
      obtain rfl := Host.Outcome.next.inj h
      exact congrArg Host.Outcome.next (takeHold_eraseAcks s n more)
    | reset =>
      obtain rfl := Host.Outcome.next.inj h
      rfl
    | complete ack d =>
      have hmove : s.eraseAcks.canMove = s.canMove := rfl
      simp only [List.map_cons, Input.eraseAck, hmove]
      split_ifs at h ⊢ <;> obtain rfl := Host.Outcome.next.inj h
      · exact congrArg Host.Outcome.next (resume_eraseAcks s)
      · exact congrArg Host.Outcome.next (takeCompletion_eraseAcks (s.withInputs more) ack d)
    | access a => exact hostAccess_eraseAcks (s := s.withInputs more) h

end

/-- Settles O59: a step commutes with taking the acknowledge bits away, so states equal without them step to such states. -/
theorem acknowledgeBitsChangeNothing : Obligations.AcknowledgeBitsChangeNothing := by
  unfold Obligations.AcknowledgeBitsChangeNothing
  intro s₁ s₂ t₁ t₂ hs h₁ h₂
  have h₁' := step_eraseAcks h₁
  rw [hs, step_eraseAcks h₂] at h₁'
  exact (Host.Outcome.next.inj h₁').symm

/-! ### No step stops the machine -/

theorem writeCmd_next (w : Word) (s : State) : ∃ t, writeCmd w s = .next t := by
  unfold writeCmd
  split
  · exact ⟨_, exec_eq_command _ s⟩
  · exact ⟨_, rfl⟩

theorem hostAccess_next (a : HostAccess) (s : State) : ∃ t, hostAccess a s = .next t := by
  cases a with
  | write offset bytes data =>
    simp only [hostAccess]
    split
    · exact writeCmd_next data s
    · exact ⟨_, rfl⟩
  | read offset bytes =>
    simp only [hostAccess]
    split <;> exact ⟨_, rfl⟩

/-- Settles O5: every input is taken with a next state, and a command is the host's write of its word. -/
theorem stepAlwaysAnswersNext : Obligations.StepAlwaysAnswersNext := by
  unfold Obligations.StepAlwaysAnswersNext
  intro s
  simp only [step, advance]
  split
  case h_4 => split <;> exact ⟨_, rfl⟩
  case h_5 a more _ => exact hostAccess_next a _
  all_goals exact ⟨_, rfl⟩

end Sys2Proof.Proofs.Acknowledge
end

section
/-! PROOFS. The transport primitives (R101 to R105): what a request does once it is answered, at once or late (R100, R106),
and what a primitive that may not happen in the block's phase does. -/

namespace Sys2Proof.Proofs.Transport

open Sys2Proof Sys2Proof.Machine Sys2Proof.Proofs.Steps Sys2Proof.Proofs.Acknowledge Sys2Proof.Proofs.Invariant
open Sys2Proof.Proofs.Frame Sys2Proof.Proofs.BusyReads Sys2Proof.Proofs.Encoding

/-! ### A request's completion -/

/-- Bit 0 of an address byte names the direction (R85). -/
theorem dirOf_eq (b : Byte) : dirOf b = if b.toNat % 2 = 0 then .write else .read := by
  rcases Nat.mod_two_eq_zero_or_one b.toNat with h | h <;> simp [dirOf, BitVec.getLsbD, Nat.testBit_zero, h]

/-- Bits 7:1 of an address byte are the address (R85). -/
theorem extractLsb'_address (b : Byte) : b.extractLsb' 1 7 = BitVec.ofNat 7 (b.toNat / 2) := by
  apply BitVec.eq_of_toNat_eq
  simp [BitVec.extractLsb'_toNat, Nat.shiftRight_eq_div_pow]

/-- The effect of an address byte, by its number (R102). -/
theorem address_eq (b : Byte) (s : State) : s.address b = { s with
    curAddr := BitVec.ofNat 7 (b.toNat / 2)
    curDir := if b.toNat % 2 = 0 then .write else .read
    tstate := if b.toNat % 2 = 0 then .tx else .rx } := by
  simp only [State.address, extractLsb'_address, dirOf_eq]
  rcases Nat.mod_two_eq_zero_or_one b.toNat with h | h <;> simp [h]

/-- The handshake of a busy block after a step that is over (R24, R73). -/
theorem retire_busy {s : State} (hb : s.busy = true) (hd : s.done = false) (rest : List MStep) :
    s.retire rest = { s with
      mseq := rest, busy := !rest.isEmpty, done := rest.isEmpty, cmd := if rest = [] then none else s.cmd } := by
  cases rest with
  | nil => rfl
  | cons m more => simp [State.retire, hb, hd]

/-- RXBUF after step `m` is answered with byte `d` (R103, R104). -/
def received (m : MStep) (d : Byte) (buf : Vector (Option Byte) Config.nmax) : Vector (Option Byte) Config.nmax :=
  match m with
  | .rda k | .rdnk k => buf.setIfInBounds k (some d)
  | _ => buf

/-- The byte of a read stands in the read's element, and every other element is as before (R103, R104). -/
theorem received_getElem? (m : MStep) (d : Byte) (s : State) : m.inBuffer = true →
    ∀ j, (received m d s.rxbuf)[j]?.join = match m with
      | .rda k | .rdnk k => if j = k then some d else s.rx j
      | _ => s.rx j := by
  intro hm j
  cases m
  case rda k | rdnk k =>
    have hk : k < Config.nmax := by simpa [MStep.inBuffer] using hm
    rcases eq_or_ne j k with rfl | hne
    · simp [received, hk]
    · simp [State.rx, received, hne, Vector.getElem?_setIfInBounds_ne hne.symm]
  all_goals rfl

/-- A completion's writes, all in one place (R100 to R105). -/
theorem completed_eq_afterAnswer {s : State} (hb : s.busy = true) (hd : s.done = false) (m : MStep) (sym : Sym) (ack : Bool)
    (d : Byte) (rest : List MStep) (more : List Input) :
    completed m sym ack d rest (s.withInputs more) = afterAnswer m sym ack d rest more (received m d s.rxbuf) s := by
  have hb' : (effect m d ((s.withInputs more).record (sym.event ack d))).busy = true := by
    rw [effect_frame]
    exact hb
  have hd' : (effect m d ((s.withInputs more).record (sym.event ack d))).done = false := by
    rw [effect_frame]
    exact hd
  rw [completed, retire_busy hb' hd']
  cases m
  case wrb b =>
    cases h : s.tstate
    case started =>
      simp only [effect, afterAnswer, h, address_eq, State.record_tstate, State.withInputs_tstate, if_true]
      rfl
    all_goals
      simp only [effect, afterAnswer, h, State.record_tstate, State.withInputs_tstate]
      rfl
  all_goals rfl

/-! ### A primitive as a command -/

section
variable {i : Instr} {m : MStep} {s : State} (hseq : ∀ b calOk, stepsOf b calOk i = [m]) (hs : s.Ready)
  (ha : i.admitted s.build.variant = true)
include hseq hs ha

/-- A ready block runs the primitive's one step (R90). -/
theorem exec_primitive : exec i s = .next (run [m] (s.accept (encode i) [m])) := by
  obtain ⟨hf, hb, -⟩ := hs
  rw [exec_eq_command, hseq, command_ready hf hb ha]

/-- A primitive whose completion is next. -/
theorem exec_answered {sym : Sym} {ack : Bool} {d : Byte} {more : List Input} (hreq : action m s = .request sym)
    (hi : s.inputs = .complete ack d :: more) :
    exec i s = .next (afterAnswer m sym ack d [] more (received m d s.rxbuf) s) := by
  rw [exec_primitive hseq hs ha, run_answered (s := s.accept _ _) hi (action_request hreq rfl),
    completed_eq_afterAnswer (s := (s.accept _ _).issue sym) rfl rfl]
  rfl

/-- A primitive that may not happen in the block's phase (R244). -/
theorem exec_violation (hfail : ∀ w, action m (s.accept w [m]) = .fail .protocolViolation) :
    exec i s = .next (faultState .protocolViolation (encode i) s) := by
  rw [exec_primitive hseq hs ha]
  obtain ⟨-, -, ht⟩ := hs
  exact congrArg Host.Outcome.next (run_fail (s := s.accept _ _) ht (hfail _))

end

/-! ### When a primitive may happen (R101 to R105) -/

section
variable {s : State}

theorem requestStart_idle (h : s.tstate = .idle) : requestStart s = .request .start := by
  simp [requestStart, h]

theorem requestStart_repeated (h : s.tstate = .tx ∨ s.tstate = .rxend) : requestStart s = .request .repStart := by
  rcases h with h | h <;> simp [requestStart, h]

theorem requestStart_violation (h : s.tstate = .started ∨ s.tstate = .rx) :
    requestStart s = .fail .protocolViolation := by
  rcases h with h | h <;> simp [requestStart, h]

theorem requestWrb_write {b : Byte} (h : s.tstate = .started ∨ s.tstate = .tx) : requestWrb b s = .request (.write b) := by
  rcases h with h | h <;> simp [requestWrb, h]

theorem requestWrb_violation {b : Byte} (h : s.tstate = .idle ∨ s.tstate = .rx ∨ s.tstate = .rxend) :
    requestWrb b s = .fail .protocolViolation := by
  rcases h with h | h | h <;> simp [requestWrb, h]

theorem requestRead_rx {m : Bool} (h : s.tstate = .rx) : requestRead m s = .request (.read m) := by
  simp [requestRead, h]

theorem requestRead_violation {m : Bool} (h : s.tstate ≠ .rx) : requestRead m s = .fail .protocolViolation := by
  cases ht : s.tstate
  case rx => exact absurd ht h
  all_goals simp [requestRead, ht]

theorem requestStop_stop (h : s.tstate = .tx ∨ s.tstate = .rxend) : requestStop s = .request .stop := by
  rcases h with h | h <;> simp [requestStop, h]

theorem requestStop_violation (h : s.tstate = .idle ∨ s.tstate = .started ∨ s.tstate = .rx) :
    requestStop s = .fail .protocolViolation := by
  rcases h with h | h | h <;> simp [requestStop, h]

end

/-! ### The statements on the primitives -/

/-- Settles O21: START requests S or Sr by TSTATE, or may not happen. -/
theorem startRule : Obligations.StartRule := by
  unfold Obligations.StartRule
  intro s hs
  have hseq : ∀ b calOk, stepsOf b calOk .start = [.start] := fun _ _ => rfl
  refine ⟨fun ack d more ht hi => ?_, fun ack d more ht hi => ?_, fun ht => ?_⟩
  · exact exec_answered hseq hs rfl (requestStart_idle ht) hi
  · exact exec_answered hseq hs rfl (requestStart_repeated ht) hi
  · exact exec_violation hseq hs rfl fun w => requestStart_violation (s := s.accept w _) ht

/-- Settles O22: WRB writes an address byte in STARTED and a data byte in TX, or may not happen. -/
theorem wrbRule : Obligations.WrbRule := by
  unfold Obligations.WrbRule
  intro s b hs
  have hseq : ∀ o calOk, stepsOf o calOk (.wrb b) = [.wrb b] := fun _ _ => rfl
  refine ⟨fun ack d more ht hi => ?_, fun ack d more ht hi => ?_, fun ht => ?_⟩
  · rw [exec_answered hseq hs rfl (requestWrb_write (.inl ht)) hi]
    simp only [afterAnswer, ht, if_true]
    rfl
  · rw [exec_answered hseq hs rfl (requestWrb_write (.inr ht)) hi]
    simp [afterAnswer, received, State.ended, ht]
  · exact exec_violation hseq hs rfl fun w => requestWrb_violation (s := s.accept w _) ht

/-- Settles O25: STOP may happen in TX and in RXEND. -/
theorem stopRule : Obligations.StopRule := by
  unfold Obligations.StopRule
  intro s hs
  have hseq : ∀ b calOk, stepsOf b calOk .stop = [.stop] := fun _ _ => rfl
  refine ⟨fun ack d more ht hi => ?_, fun ht => ?_⟩
  · exact exec_answered hseq hs rfl (requestStop_stop ht) hi
  · exact exec_violation hseq hs rfl fun w => requestStop_violation (s := s.accept w _) ht

/-! #### The reads, which have an index -/

/-- RDA and RDNK: the index is checked first, then TSTATE (R84, R90). -/
theorem exec_read {i : Instr} {m : MStep} {nextAck : Bool} {k : Byte} {s : State} (hs : s.Ready)
    (hseq : ∀ b calOk, stepsOf b calOk i = [m]) (hadm : ∀ v, i.admitted v = decide (k.toNat < 32))
    (hact : ∀ u, action m u = requestRead nextAck u) :
    (∀ ack d more, k.toNat < 32 → s.tstate = .rx → s.inputs = .complete ack d :: more →
      exec i s = .next (afterAnswer m (.read nextAck) ack d [] more (received m d s.rxbuf) s)) ∧
    (k.toNat < 32 → s.tstate ≠ .rx → exec i s = .next (faultState .protocolViolation (encode i) s)) ∧
    (32 ≤ k.toNat → exec i s = .next (faultState .illegalCommand (encode i) s)) := by
  refine ⟨fun ack d more hk ht hi => ?_, fun hk ht => ?_, fun hk => ?_⟩
  · exact exec_answered hseq hs (by simp [hadm, hk]) ((hact s).trans (requestRead_rx ht)) hi
  · exact exec_violation hseq hs (by simp [hadm, hk])
      fun w => (hact _).trans (requestRead_violation (s := s.accept w [m]) ht)
  · obtain ⟨hf, hb, -⟩ := hs
    rw [exec_eq_command, command_not_admitted hf hb (by simp [hadm, hk])]

/-- RDA and RDNK are admitted by their index alone (R84). -/
theorem admitted_rda (k : Byte) (v : Variant) : (Instr.rda k).admitted v = decide (k.toNat < 32) := by
  simp [Instr.admitted, Instr.wf, Instr.builtIn, Instr.variant?]

theorem admitted_rdnk (k : Byte) (v : Variant) : (Instr.rdnk k).admitted v = decide (k.toNat < 32) := by
  simp [Instr.admitted, Instr.wf, Instr.builtIn, Instr.variant?]

/-- Settles O23: RDA may happen in RX, and writes the element of its index. -/
theorem rdaRule : Obligations.RdaRule := by
  unfold Obligations.RdaRule
  intro s k hs
  obtain ⟨hrx, hviolation, hillegal⟩ :=
    exec_read (m := .rda k.toNat) hs (fun _ _ => rfl) (admitted_rda k) (fun _ => rfl)
  exact ⟨fun ack d more hk ht hi => ⟨_, hrx ack d more hk ht hi, rfl,
    received_getElem? (.rda k.toNat) d s (decide_eq_true hk)⟩, hviolation, hillegal⟩

/-- Settles O24: RDNK may happen in RX, writes the element of its index and ends the read. -/
theorem rdnkRule : Obligations.RdnkRule := by
  unfold Obligations.RdnkRule
  intro s k hs
  obtain ⟨hrx, hviolation, hillegal⟩ :=
    exec_read (m := .rdnk k.toNat) hs (fun _ _ => rfl) (admitted_rdnk k) (fun _ => rfl)
  exact ⟨fun ack d more hk ht hi => ⟨_, hrx ack d more hk ht hi, rfl,
    received_getElem? (.rdnk k.toNat) d s (decide_eq_true hk)⟩, hviolation, hillegal⟩

/-! ### Completions that come late (R100, R106) -/

/-- A completion for an outstanding request is taken by the step (R100). -/
theorem step_complete_pending {s : State} {ack : Bool} {d : Byte} {more : List Input} (hp : s.pend ≠ none)
    (hi : s.inputs = .complete ack d :: more) : step s = .next (takeCompletion ack d (s.withInputs more)) := by
  have hmove : s.canMove = false := by simp [State.canMove, Option.isNone_eq_false_iff, Option.isSome_iff_ne_none, hp]
  simp [step, advance, hi, hmove]

/-- What a step of MSEQ does under other inputs. -/
theorem action_withInputs (m : MStep) (l : List Input) (s : State) :
    action m (s.withInputs l) = onAction (State.withInputs l) (action m s) :=
  action_of_rewired (tr := s.trace) (fun u _ htr => by rw [← htr]; rfl) m

theorem effect_withInputs (m : MStep) (d : Byte) (l : List Input) (s : State) :
    effect m d (s.withInputs l) = (effect m d s).withInputs l := by
  cases m
  case wrb => simp only [effect, State.withInputs_tstate]; cases s.tstate <;> rfl
  all_goals rfl

theorem retire_withInputs (rest : List MStep) (l : List Input) (s : State) :
    (s.withInputs l).retire rest = (s.retire rest).withInputs l := by
  cases rest <;> rfl

section
variable (m : MStep) (sym : Sym) (ack : Bool) (d : Byte) (rest : List MStep) (s : State)

theorem completed_withInputs (l : List Input) :
    completed m sym ack d rest (s.withInputs l) = (completed m sym ack d rest s).withInputs l := by
  rw [completed, completed, ← retire_withInputs, ← effect_withInputs]
  rfl

theorem completed_inputs : (completed m sym ack d rest s).inputs = s.inputs := by
  rw [completed, State.retire_inputs, effect_frame]
  rfl

theorem completed_pend : (completed m sym ack d rest s).pend = none := by
  rw [completed, State.retire_pend, effect_frame]
  rfl

theorem completed_mseq : (completed m sym ack d rest s).mseq = rest :=
  State.retire_mseq _ _

end

theorem takeCompletion_pending {m : MStep} {rest : List MStep} {sym : Sym} {s : State} (hp : s.pend = some sym)
    (hm : s.mseq = m :: rest) (ack : Bool) (d : Byte) :
    takeCompletion ack d s = run rest (completed m sym ack d rest s) := by
  simp only [takeCompletion, hp, hm]

/-- Answers never hold the engine back, nor does the end of the inputs (log 2). -/
theorem engineTurn_answers (cs : List (Bool × Byte)) {l : List Input} (hl : engineTurn l = some l) :
    engineTurn (answers cs ++ l) = some (answers cs ++ l) := by
  cases cs with
  | nil => exact hl
  | cons c cs => rfl

/-- A run that its answers leave waiting: with one more answer there from the start, it ends where that answer, coming late,
takes it. -/
theorem run_answered_late {seq : List MStep} {s : State} {cs : List (Bool × Byte)} (ack : Bool) (d : Byte)
    (more : List Input) (hm : s.mseq = seq) (hp : s.pend = none) (hi : s.inputs = answers cs)
    (hwait : (run seq s).pend ≠ none) :
    run seq (s.withInputs (answers cs ++ .complete ack d :: more)) =
      takeCompletion ack d ((run seq s).withInputs more) := by
  induction seq generalizing s cs with
  | nil => exact absurd hp hwait
  | cons m rest ih =>
    have hturn : engineTurn s.inputs = some s.inputs := by simpa [hi] using engineTurn_answers cs (l := []) rfl
    have hact := action_withInputs m (answers cs ++ .complete ack d :: more) s
    cases ha : action m s with
    | fail c =>
      rw [run_fail hturn ha] at hwait
      exact absurd rfl hwait
    | done s' =>
      rw [ha] at hact
      have hkeep := action_done ha
      have hp' : s'.pend = none := by rw [hkeep]; exact hp
      have hi' : s'.inputs = answers cs := by rw [hkeep]; exact hi
      rw [run_done hturn ha] at hwait ⊢
      rw [run_done (engineTurn_answers cs rfl) hact, ← ih (State.retire_mseq _ _) (by simpa) (by simpa) hwait,
        ← retire_withInputs]
    | request sym =>
      rw [ha] at hact
      cases cs with
      | nil =>
        rw [run_waits hi ha, run_answered rfl hact, takeCompletion_pending (s := (s.issue sym).withInputs more) rfl hm]
        rfl
      | cons c cs =>
        rw [run_answered hi ha] at hwait ⊢
        rw [run_answered rfl hact, ← ih (completed_mseq ..) (completed_pend ..) (completed_inputs ..) hwait,
          ← completed_withInputs]
        rfl

/-- A command that its answers leave waiting: with one more answer there from the start, it ends where that answer, coming
late, takes it. -/
theorem exec_answered_late {i : Instr} {s t : State} {cs : List (Bool × Byte)} (ack : Bool) (d : Byte) (more : List Input)
    (hs : s.Ready) (hp : s.pend = none) (hi : s.inputs = answers cs) (ht : exec i s = .next t) (hwait : t.pend ≠ none) :
    exec i (s.withInputs (answers cs ++ .complete ack d :: more)) = .next (takeCompletion ack d (t.withInputs more)) := by
  obtain ⟨hf, hb, -⟩ := hs
  rw [exec_eq_command] at ht ⊢
  obtain rfl := Host.Outcome.next.inj ht
  cases ha : i.admitted s.build.variant
  · rw [command_not_admitted hf hb ha] at hwait
    exact absurd rfl hwait
  · rw [command_ready hf hb ha] at hwait ⊢
    rw [command_ready (s := s.withInputs (answers cs ++ .complete ack d :: more)) hf hb ha]
    exact congrArg Host.Outcome.next (run_answered_late (s := s.accept _ _) ack d more rfl hp hi hwait)

/-- Settles O26: a request without a completion waits; a late one is taken as one that is there at once. -/
theorem withheldCompletionHangs : Obligations.WithheldCompletionHangs := by
  unfold Obligations.WithheldCompletionHangs
  refine ⟨fun s hs ht hi => ?_, fun s hp hi => ?_, fun s m rest sym ack d more h hp hm hi => ?_,
    fun i s t cs ack d more hs hp hi ht hwait => ?_⟩
  · have ha : action .start (s.accept (encode .start) [.start]) = .request .start := requestStart_idle ht
    rw [exec_primitive (m := .start) (fun _ _ => rfl) hs rfl, run_waits (s := s.accept _ _) hi ha]
    rfl
  · rw [step, advance, hi]
    exact congrArg Host.Outcome.next (resume_waiting hp)
  · obtain ⟨hb, hd, -⟩ := busy_of_inv h hm
    have hbuf := h.seqInBuffer
    rw [hm, List.all_cons, Bool.and_eq_true] at hbuf
    refine ⟨received m d s.rxbuf, ?_, received_getElem? m d s hbuf.1⟩
    rw [step_complete_pending (by simp [hp]) hi, takeCompletion_pending (s := s.withInputs more) hp hm,
      completed_eq_afterAnswer hb hd]
  · exact (step_complete_pending (s := t.withInputs (.complete ack d :: more)) hwait rfl).trans
      (exec_answered_late ack d more hs hp hi ht hwait).symm

end Sys2Proof.Proofs.Transport
end

section
/-! PROOFS. The five properties of R109: what R107 admits in each phase, said once per event, and what a trace it admits
therefore looks like. -/

namespace Sys2Proof.Proofs.Traces

open Sys2Proof Sys2Proof.Machine

/-! ### Where an event may happen, and the phase it leads to (R107) -/

section
variable {t t' : TState}

theorem busPhase_start : busPhase t .start = some t' ↔ t = .idle ∧ t' = .started := by
  cases t <;> simp [busPhase, eq_comm]

theorem busPhase_repStart : busPhase t .repStart = some t' ↔ (t = .tx ∨ t = .rxend) ∧ t' = .started := by
  cases t <;> simp [busPhase, eq_comm]

theorem busPhase_stop : busPhase t .stop = some t' ↔ (t = .tx ∨ t = .rxend) ∧ t' = .idle := by
  cases t <;> simp [busPhase, eq_comm]

theorem busPhase_write {b : Byte} {ack : Bool} : busPhase t (.write b ack) = some t' ↔
    (t = .started ∧ t' = if b.toNat % 2 = 1 then .rx else .tx) ∨ (t = .tx ∧ t' = .tx) := by
  have hbit : b.getLsbD 0 = decide (b.toNat % 2 = 1) := Nat.testBit_zero b.toNat
  have hphase : busPhase .started (.write b ack) = some (if b.toNat % 2 = 1 then .rx else .tx) := by
    simp only [busPhase, hbit, decide_eq_true_eq, apply_ite some]
  cases t
  case started => simp [hphase, eq_comm]
  all_goals simp [busPhase, eq_comm]

theorem busPhase_read {d : Byte} {m : Bool} :
    busPhase t (.read d m) = some t' ↔ t = .rx ∧ t' = if m then .rx else .rxend := by
  cases t <;> cases m <;> simp [busPhase, eq_comm]

theorem busPhase_delay {ms : Nat} : busPhase t (.delay ms) = some t' ↔ t' = t := by
  cases t <;> simp [busPhase, eq_comm]

end

/-! ### Traces that R107 admits -/

section
variable {t t' : TState} {e : BusEvent} {tr tr' : List BusEvent}

theorem tracePhase_cons :
    tracePhase t (e :: tr) = some t' ↔ ∃ u, busPhase t e = some u ∧ tracePhase u tr = some t' := by
  cases h : busPhase t e <;> simp [tracePhase, h]

theorem tracePhase_append_iff :
    tracePhase t (tr ++ tr') = some t' ↔ ∃ u, tracePhase t tr = some u ∧ tracePhase u tr' = some t' := by
  induction tr generalizing t with
  | nil => simp [tracePhase]
  | cons e tr ih =>
    simp only [List.cons_append, tracePhase_cons, ih]
    constructor
    · rintro ⟨u, hu, v, hv, hv'⟩
      exact ⟨v, ⟨u, hu, hv⟩, hv'⟩
    · rintro ⟨v, ⟨u, hu, hv⟩, hv'⟩
      exact ⟨u, hu, v, hv, hv'⟩

/-- Delays are no bus traffic, and lead nowhere (R37). -/
theorem tracePhase_busTraffic (h : tracePhase t tr = some t') : tracePhase t (busTraffic tr) = some t' := by
  induction tr generalizing t with
  | nil => exact h
  | cons e tr ih =>
    obtain ⟨u, hu, hrest⟩ := tracePhase_cons.1 h
    cases e
    case delay => exact ih (busPhase_delay.1 hu ▸ hrest)
    all_goals exact tracePhase_cons.2 ⟨u, hu, ih hrest⟩

theorem delay_not_mem_busTraffic (ms : Nat) (tr : List BusEvent) : .delay ms ∉ busTraffic tr := by
  simp [busTraffic]

/-- Transactions open in a phase: one, but in IDLE. -/
def openIn (t : TState) : Nat := if t = .idle then 0 else 1

/-- An S opens a transaction, a P closes one, and no other event does either. -/
theorem count_event (h : busPhase t e = some t') : [e].count .start + openIn t = [e].count .stop + openIn t' := by
  cases e
  case start =>
    obtain ⟨rfl, rfl⟩ := busPhase_start.1 h
    simp [openIn]
  case repStart => obtain ⟨rfl | rfl, rfl⟩ := busPhase_repStart.1 h <;> simp [openIn]
  case stop => obtain ⟨rfl | rfl, rfl⟩ := busPhase_stop.1 h <;> simp [openIn]
  case write b ack =>
    obtain ⟨rfl, rfl⟩ | ⟨rfl, rfl⟩ := busPhase_write.1 h
    · split <;> simp [openIn]
    · simp [openIn]
  case read d m =>
    obtain ⟨rfl, rfl⟩ := busPhase_read.1 h
    cases m <;> simp [openIn]
  case delay =>
    obtain rfl := busPhase_delay.1 h
    simp

/-- R109 item 1: S and P balance, up to the transaction that is open. -/
theorem count_start_eq (h : tracePhase t tr = some t') : tr.count .start + openIn t = tr.count .stop + openIn t' := by
  induction tr generalizing t with
  | nil =>
    obtain rfl := Option.some.inj h
    simp
  | cons e tr ih =>
    obtain ⟨u, hu, hrest⟩ := tracePhase_cons.1 h
    have hevent := count_event hu
    have hcount := ih hrest
    rw [← List.singleton_append, List.count_append, List.count_append]
    omega

/-- The phase in which an event of a trace happens. -/
theorem phase_before {pre post : List BusEvent} (h : tracePhase t (pre ++ e :: post) = some t') :
    ∃ u v, tracePhase t pre = some u ∧ busPhase u e = some v ∧ tracePhase v post = some t' := by
  obtain ⟨u, hu, hrest⟩ := tracePhase_append_iff.1 h
  obtain ⟨v, hv, hpost⟩ := tracePhase_cons.1 hrest
  exact ⟨u, v, hu, hv, hpost⟩

/-- R107: an S or Sr is followed by an address byte. -/
theorem phase_after_start {u v : TState} (he : e = .start ∨ e = .repStart) (h : busPhase u e = some v) : v = .started := by
  rcases he with rfl | rfl
  · exact (busPhase_start.1 h).2
  · exact (busPhase_repStart.1 h).2

end

/-! ### One transfer in one direction -/

/-- No Sr, no P and no delay. -/
def Unbroken (tr : List BusEvent) : Prop := .repStart ∉ tr ∧ .stop ∉ tr ∧ ∀ ms, .delay ms ∉ tr

/-- An event that breaks no transfer is an S, a written byte or a read, and the events after it break none. -/
theorem Unbroken.of_cons {e : BusEvent} {tr : List BusEvent} (h : Unbroken (e :: tr)) :
    (e = .start ∨ (∃ b ack, e = .write b ack) ∨ ∃ d m, e = .read d m) ∧ Unbroken tr := by
  obtain ⟨hrep, hstop, hdelay⟩ := h
  refine ⟨?_, fun hm => hrep (.tail _ hm), fun hm => hstop (.tail _ hm), fun ms hm => hdelay ms (.tail _ hm)⟩
  cases e
  case repStart => exact absurd (.head _) hrep
  case stop => exact absurd (.head _) hstop
  case delay ms => exact absurd (.head _) (hdelay ms)
  all_goals simp

section
variable {tr : List BusEvent} {t : TState}

/-- After the read with NACK nothing comes but an Sr or P (R104). -/
theorem unbroken_rxend (h : tracePhase .rxend tr = some t) (hu : Unbroken tr) : tr = [] ∧ t = .rxend := by
  cases tr with
  | nil => exact ⟨rfl, (Option.some.inj h).symm⟩
  | cons e tr =>
    obtain ⟨v, hv, -⟩ := tracePhase_cons.1 h
    obtain ⟨rfl | ⟨b, ack, rfl⟩ | ⟨d, m, rfl⟩, -⟩ := hu.of_cons
    · cases hv
    · cases hv
    · cases (busPhase_read.1 hv).1

/-- After a READ address byte: reads with ACK, and perhaps a last one with NACK (R103, R104). -/
theorem unbroken_rx (h : tracePhase .rx tr = some t) (hu : Unbroken tr) :
    ∃ ds : List Byte,
      (tr = ds.map (.read · true) ∧ t = .rx) ∨ ∃ d, tr = ds.map (.read · true) ++ [.read d false] := by
  induction tr with
  | nil => exact ⟨[], .inl ⟨rfl, (Option.some.inj h).symm⟩⟩
  | cons e tr ih =>
    obtain ⟨v, hv, hrest⟩ := tracePhase_cons.1 h
    obtain ⟨rfl | ⟨b, ack, rfl⟩ | ⟨d, m, rfl⟩, hu'⟩ := hu.of_cons
    · cases hv
    · cases hv
    · obtain ⟨-, rfl⟩ := busPhase_read.1 hv
      cases m with
      | false =>
        obtain ⟨rfl, -⟩ := unbroken_rxend hrest hu'
        exact ⟨[], .inr ⟨d, rfl⟩⟩
      | true =>
        obtain ⟨ds, ⟨rfl, ht⟩ | ⟨d', rfl⟩⟩ := ih hrest hu'
        · exact ⟨d :: ds, .inl ⟨rfl, ht⟩⟩
        · exact ⟨d :: ds, .inr ⟨d', rfl⟩⟩

/-- After a WRITE address byte: written bytes (R102). -/
theorem unbroken_tx (h : tracePhase .tx tr = some t) (hu : Unbroken tr) : ∀ e ∈ tr, ∃ d a, e = .write d a := by
  induction tr with
  | nil => simp
  | cons e tr ih =>
    obtain ⟨v, hv, hrest⟩ := tracePhase_cons.1 h
    obtain ⟨rfl | ⟨b, ack, rfl⟩ | ⟨d, m, rfl⟩, hu'⟩ := hu.of_cons
    · cases hv
    · obtain ⟨ht, -⟩ | ⟨-, rfl⟩ := busPhase_write.1 hv
      · cases ht
      · exact List.forall_mem_cons.2 ⟨⟨b, ack, rfl⟩, ih hrest hu'⟩
    · cases (busPhase_read.1 hv).1

end

/-! ### The statement -/

section
variable {ev : List BusEvent} {t : TState} (h : tracePhase .idle ev = some t)
include h

/-- The phase after the address byte of a transfer that stands in a trace, and after the transfer (R102). -/
theorem phases_of_transfer {pre mid post : List BusEvent} {x : BusEvent} {b : Byte} {ack : Bool}
    (hev : ev = pre ++ x :: .write b ack :: (mid ++ post)) (hx : x = .start ∨ x = .repStart) :
    ∃ v, tracePhase (if b.toNat % 2 = 1 then .rx else .tx) mid = some v ∧ tracePhase v post = some t := by
  obtain ⟨_, u, -, hu, hrest⟩ := phase_before (hev ▸ h)
  obtain rfl := phase_after_start hx hu
  obtain ⟨w, hw, hrest⟩ := tracePhase_cons.1 hrest
  obtain ⟨-, rfl⟩ | ⟨ht, -⟩ := busPhase_write.1 hw
  · exact tracePhase_append_iff.1 hrest
  · cases ht

/-- R109: a trace without delays that R107 admits has the five properties. -/
theorem transactions_of_tracePhase (hdelay : ∀ ms, .delay ms ∉ ev) : Transactions ev t where
  startsClosed pre post hev := by
    obtain ⟨u, v, hpre, hu, -⟩ := phase_before (hev ▸ h)
    obtain ⟨rfl, -⟩ := busPhase_start.1 hu
    simpa [openIn] using count_start_eq hpre
  stopsOpen pre post hev := by
    obtain ⟨u, v, hpre, hu, -⟩ := phase_before (hev ▸ h)
    obtain ⟨rfl | rfl, -⟩ := busPhase_stop.1 hu <;> simpa [openIn] using count_start_eq hpre
  balanced := by simpa [openIn] using count_start_eq h
  repStartsOpen pre post hev := by
    obtain ⟨u, v, hpre, hu, -⟩ := phase_before (hev ▸ h)
    obtain ⟨rfl | rfl, -⟩ := busPhase_repStart.1 hu <;> simpa [openIn] using count_start_eq hpre
  addressed pre x y post hev hx := by
    obtain ⟨_, v, -, hv, hrest⟩ := phase_before (hev ▸ h)
    obtain rfl := phase_after_start hx hv
    obtain ⟨w, hw, -⟩ := tracePhase_cons.1 hrest
    cases y
    case write b ack => exact ⟨b, ack, rfl⟩
    case delay ms => exact absurd (by simp [hev]) (hdelay ms)
    case read => cases (busPhase_read.1 hw).1
    all_goals cases hw
  reads pre x b ack mid post hev hx hrep hstop hb := by
    obtain ⟨v, hmid, hpost⟩ := phases_of_transfer h hev hx
    rw [if_pos hb] at hmid
    have hunbroken : Unbroken mid := ⟨hrep, hstop, fun ms hm => hdelay ms (by simp [hev, hm])⟩
    obtain ⟨ds, ⟨rfl, rfl⟩ | ⟨d, rfl⟩⟩ := unbroken_rx hmid hunbroken
    · refine ⟨by simp, fun e he => ?_, fun hhead => ?_⟩
      · obtain ⟨d, -, rfl⟩ := List.mem_map.1 (List.mem_of_mem_dropLast he)
        exact ⟨d, rfl⟩
      · cases post with
        | nil => simp at hhead
        | cons e post =>
          obtain ⟨w, hw, -⟩ := tracePhase_cons.1 hpost
          obtain rfl | rfl : e = .repStart ∨ e = .stop := by simpa using hhead
          · cases hw
          · cases hw
    · refine ⟨fun e he => ?_, by simp, fun _ => ⟨d, by simp⟩⟩
      obtain he | rfl : e ∈ ds.map _ ∨ e = .read d false := by simpa using he
      · obtain ⟨d', -, rfl⟩ := List.mem_map.1 he
        exact ⟨d', true, rfl⟩
      · exact ⟨d, false, rfl⟩
  writes pre x b ack mid post hev hx hrep hstop hb := by
    obtain ⟨v, hmid, -⟩ := phases_of_transfer h hev hx
    rw [if_neg (by omega)] at hmid
    exact unbroken_tx hmid ⟨hrep, hstop, fun ms hm => hdelay ms (by simp [hev, hm])⟩

end

/-- Settles O60: delays aside, a legal trace is legal traffic, and the invariant says that a state's trace is legal. -/
theorem legalTracesAreBalanced : Obligations.LegalTracesAreBalanced := by
  unfold Obligations.LegalTracesAreBalanced
  have hall : ∀ (tr : List BusEvent) (t : TState), tracePhase .idle tr = some t → Transactions (busTraffic tr) t :=
    fun tr t h => transactions_of_tracePhase (tracePhase_busTraffic h) (delay_not_mem_busTraffic · tr)
  exact ⟨hall, fun s hs => hall s.trace s.tstate hs.tracePhase⟩

end Sys2Proof.Proofs.Traces
end

section
/-! PROOFS. Register access (R130 to R142): answered transfers said once, without the handshake (`Transfer`), run as the steps of
one command or as commands one by one, the transfers of each composite, and its statements. -/

namespace Sys2Proof.Proofs.RegisterAccess

open Sys2Proof Sys2Proof.Machine Sys2Proof.Proofs.Steps Sys2Proof.Proofs.Frame Sys2Proof.Proofs.Encoding
open Sys2Proof.Proofs.Transport

/-! ### Answered transfers -/

/-- What the answer `c` to the request `sym` of step `m` does to the registers and the trace (R100 to R105). -/
def answered (m : MStep) (sym : Sym) (c : Bool × Byte) (s : State) : State :=
  effect m c.2 (s.record (sym.event c.1 c.2))

/-- The steps, each issuing the next request and given the next answer, take the block from the first state to the second,
inputs and handshake aside. -/
inductive Transfer : List MStep → List Sym → List (Bool × Byte) → State → State → Prop
  | nil (s : State) : Transfer [] [] [] s s
  | cons {m : MStep} {sym : Sym} {c : Bool × Byte} {ms : List MStep} {syms : List Sym} {cs : List (Bool × Byte)} {s t : State}
      (request : action m s = .request sym) (more : Transfer ms syms cs (answered m sym c s) t) :
      Transfer (m :: ms) (sym :: syms) (c :: cs) s t

section
variable {ms ms' : List MStep} {syms syms' : List Sym} {cs cs' : List (Bool × Byte)} {s t u : State}

theorem Transfer.append (h : Transfer ms syms cs s t) (h' : Transfer ms' syms' cs' t u) :
    Transfer (ms ++ ms') (syms ++ syms') (cs ++ cs') s u := by
  induction h with
  | nil => exact h'
  | cons request _ ih => exact .cons request (ih h')

/-- Every transfer leaves its event in the trace (R100). -/
theorem Transfer.trace (h : Transfer ms syms cs s t) : t.trace = s.trace ++ eventsOf syms cs := by
  induction h with
  | nil => simp [eventsOf]
  | cons _ _ ih =>
    rw [ih, answered, effect_frame]
    simp [eventsOf]

/-- Every request is answered once. -/
theorem Transfer.length_eq (h : Transfer ms syms cs s t) : syms.length = cs.length := by
  induction h with
  | nil => rfl
  | cons _ _ ih => exact congrArg Nat.succ ih

/-- A transfer's end, its trace given by the requests. -/
theorem Transfer.of_eq (h : Transfer ms syms cs s t) (hu : { t with trace := s.trace ++ eventsOf syms cs } = u) :
    Transfer ms syms cs s u := by
  rwa [← hu, ← h.trace]

end

/-! ### A command in progress -/

/-- The block with the command of word `w` in progress and the steps `rest` left, or over with none left (R24, R73). -/
def inProgress (w : Word) (rest : List MStep) (s : State) : State :=
  { s with mseq := rest, busy := !rest.isEmpty, done := rest.isEmpty, cmd := if rest.isEmpty then none else some w }

theorem retire_accept (w : Word) (l rest : List MStep) (s : State) :
    (s.accept w l).retire rest = inProgress w rest s := by
  cases rest <;> rfl

/-- The handshake of a command in progress stands apart from what an answer does. -/
theorem completed_inProgress (m : MStep) (sym : Sym) (c : Bool × Byte) (w : Word) (rest : List MStep) (l : List Input)
    (s : State) :
    completed m sym c.1 c.2 rest (((inProgress w (m :: rest) s).issue sym).withInputs l) =
      (inProgress w rest (answered m sym c s)).withInputs l := by
  cases m
  case wrb =>
    cases ht : s.tstate <;>
      (simp only [completed, answered, effect, inProgress, State.record_tstate, State.withInputs_tstate,
        State.issue_tstate, ht]
       cases rest <;> rfl)
  all_goals cases rest <;> rfl

/-- The engine performs answered transfers and goes on with the rest. -/
theorem run_transfer {ms : List MStep} {syms : List Sym} {cs : List (Bool × Byte)} {s t : State}
    (h : Transfer ms syms cs s t) (w : Word) (rest : List MStep) (more : List Input) :
    run (ms ++ rest) ((inProgress w (ms ++ rest) s).withInputs (answers cs ++ more)) =
      run rest ((inProgress w rest t).withInputs more) := by
  induction h with
  | nil => rfl
  | @cons m _ c ms _ cs u _ request _ ih =>
    rw [List.cons_append, ← ih, ← completed_inProgress]
    exact run_answered (s := (inProgress w (m :: (ms ++ rest)) u).withInputs (answers (c :: cs) ++ more)) rfl
      (action_request request rfl)

/-- RD2's last step, its two bytes received (R132). -/
theorem stepLatchRx16_written {o : Nat} {h l : Byte} {s : State} (hh : s.rx o = some h) (hl : s.rx (o + 1) = some l) :
    stepLatchRx16 o s = .ok { s with rx16 := some (bePair h l) } := by
  simp only [stepLatchRx16, hh, hl]

theorem run_latchRx16 {o : Nat} {h l : Byte} {t : State} {more : List Input} (hh : t.rx o = some h)
    (hl : t.rx (o + 1) = some l) (hmore : engineTurn more = some more) (w : Word) :
    run [.latchRx16 o] ((inProgress w [.latchRx16 o] t).withInputs more) =
      { t.ended with inputs := more, rx16 := some (bePair h l) } := by
  have hlatch := stepLatchRx16_written (s := (inProgress w [.latchRx16 o] t).withInputs more) hh hl
  rw [run_done (m := .latchRx16 o) hmore (congrArg internal hlatch)]
  rfl

/-! ### The composites -/

/-- R130: the check before a composite's transfers. -/
theorem action_requireIdle {s : State} (ht : s.tstate = .idle) : action .requireIdle s = .done s :=
  if_pos ht

/-- The transfers of a composite, in order (R131 to R134, R140, R142). -/
def busSteps : Instr → List MStep
  | .rd1 a r o => seqReadFrom a r ++ seqBytes o.toNat 0
  | .rd2 a r o => seqReadFrom a r ++ seqBytes o.toNat 1
  | .rdburst a r n => seqReadFrom a r ++ seqBytes 0 (n.toNat - 1)
  | .wr1 a r v => seqWr1 a r v
  | .setptr a r => seqSetptr a r
  | .rdcur a n => seqRdcur a n.toNat
  | _ => []

/-- The step after a composite's transfers: RD2 writes RX16 (R132). -/
def finish : Instr → List MStep
  | .rd2 _ _ o => [.latchRx16 o.toNat]
  | _ => []

/-- The requests of a composite's transfers. -/
def requests : Instr → List Sym
  | .rd1 a r _ => symsRead a r 0
  | .rd2 a r _ => symsRead a r 1
  | .rdburst a r n => symsRead a r (n.toNat - 1)
  | .wr1 a r v => symsWrite a r v
  | .setptr a r => symsPointer a r
  | .rdcur a n => symsCurrent a (n.toNat - 1)
  | _ => []

section
variable {i : Instr} (hi : primitives i ≠ [])
include hi

/-- A composite checks TSTATE, transfers, and finishes (R130). -/
theorem stepsOf_composite (b : Build) (calOk : Bool) :
    stepsOf b calOk i = .requireIdle :: (busSteps i ++ finish i) := by
  cases i
  case rd1 | rdburst | wr1 | setptr | rdcur => exact congrArg _ (List.append_nil _).symm
  case rd2 => rfl
  all_goals exact absurd rfl hi

/-- A composite belongs to no variant (R83). -/
theorem admitted_composite (v : Variant) : i.admitted v = i.wf := by
  cases i
  case rd1 | rd2 | rdburst | wr1 | setptr | rdcur => exact Bool.and_true _
  all_goals exact absurd rfl hi

variable {s : State} (hs : s.Ready)
include hs

/-- R84: a composite with an operand out of range. -/
theorem exec_composite_illegal (hw : i.wf = false) : exec i s = .next (faultState .illegalCommand (encode i) s) := by
  obtain ⟨hf, hb, -⟩ := hs
  rw [exec_eq_command, command_not_admitted hf hb ((admitted_composite hi _).trans hw)]

variable (hw : i.wf = true)
include hw

/-- R130: a composite outside IDLE. -/
theorem exec_composite_violation (ht : s.tstate ≠ .idle) :
    exec i s = .next (faultState .protocolViolation (encode i) s) := by
  obtain ⟨hf, hb, hturn⟩ := hs
  rw [exec_eq_command, command_ready hf hb ((admitted_composite hi _).trans hw), stepsOf_composite hi]
  exact congrArg Host.Outcome.next (run_fail (s := s.accept _ _) hturn (if_neg ht))

/-- A composite whose transfers are answered goes on to its finish. -/
theorem exec_composite_answered (ht : s.tstate = .idle) {syms : List Sym} {cs : List (Bool × Byte)} {t : State}
    {more : List Input} (h : Transfer (busSteps i) syms cs s t) (hin : s.inputs = answers cs ++ more) :
    exec i s = .next (run (finish i) ((inProgress (encode i) (finish i) t).withInputs more)) := by
  obtain ⟨hf, hb, hturn⟩ := hs
  rw [exec_eq_command, command_ready hf hb ((admitted_composite hi _).trans hw), stepsOf_composite hi,
    run_done (s := s.accept _ _) hturn (action_requireIdle ht), retire_accept, ← run_transfer h, ← hin]
  rfl

end

/-! ### The transfers of each composite -/

/-- RXBUF after bytes o to o + n were read into it (R133). -/
def filled (o : Nat) : Nat → (Nat → Bool × Byte) → Vector (Option Byte) Config.nmax → Vector (Option Byte) Config.nmax
  | 0, cs, buf => buf.setIfInBounds o (some (cs 0).2)
  | n + 1, cs, buf => filled (o + 1) n (fun j => cs (j + 1)) (buf.setIfInBounds o (some (cs 0).2))

theorem filled_getElem? (n : Nat) : ∀ (o : Nat) (cs : Nat → Bool × Byte) (buf : Vector (Option Byte) Config.nmax),
    o + n < Config.nmax →
    ∀ j, (filled o n cs buf)[j]? = if o ≤ j ∧ j ≤ o + n then some (some (cs (j - o)).2) else buf[j]? := by
  induction n with
  | zero =>
    intro o cs buf ho j
    rw [filled, Vector.getElem?_setIfInBounds]
    grind
  | succ n ih =>
    intro o cs buf ho j
    rw [filled, ih _ _ _ (by omega), Vector.getElem?_setIfInBounds]
    grind

/-- The block after n + 1 answered bytes `ds` were read into RXBUF[o] and on, whose events are `ev`, with XFER = (a, dir)
(R131 to R133, R142). -/
def afterRead (a : Addr7) (dir : Dir) (o n : Nat) (ds : Nat → Bool × Byte) (ev : List BusEvent) (s : State) : State :=
  { s with
    pend := none, tstate := .idle, curAddr := a, curDir := dir, rxdata := some (ds n).2, rxbuf := filled o n ds s.rxbuf
    trace := s.trace ++ ev }

theorem rx_afterRead {a : Addr7} {dir : Dir} {o n : Nat} {ds : Nat → Bool × Byte} {ev : List BusEvent} {s : State}
    (ho : o + n < 32) (j : Nat) :
    (afterRead a dir o n ds ev s).rx j = if o ≤ j ∧ j ≤ o + n then some (ds (j - o)).2 else s.rx j := by
  rw [State.rx, afterRead, filled_getElem? n o ds _ ho]
  split <;> rfl

/-- The block after an answered write transaction to device `a`, whose events are `ev` (R134, R140). -/
def afterWrite (a : Addr7) (ev : List BusEvent) (s : State) : State :=
  { s with pend := none, tstate := .idle, curAddr := a, curDir := .write, trace := s.trace ++ ev }

theorem extractLsb'_abyte (a : Addr7) (d : BitVec 1) : (abyte a d).extractLsb' 1 7 = a := by
  ext k hk
  simp only [BitVec.getElem_extractLsb', abyte, BitVec.getLsbD_append]
  simp [hk]

theorem getLsbD_abyte (a : Addr7) (d : BitVec 1) : (abyte a d).getLsbD 0 = d.getLsbD 0 := by
  simp only [abyte, BitVec.getLsbD_append]
  rfl

/-- A WRITE address byte, answered (R85, R102). -/
theorem answered_addressWrite {s : State} (ht : s.tstate = .started) (a : Addr7) (sym : Sym) (c : Bool × Byte) :
    answered (.wrb (abyte a 0)) sym c s =
      { s.record (sym.event c.1 c.2) with curAddr := a, curDir := .write, tstate := .tx } := by
  have hd : dirOf (abyte a 0) = .write := by rw [dirOf, getLsbD_abyte]; rfl
  simp only [answered, effect, State.record_tstate, ht, State.address, extractLsb'_abyte, hd]

/-- A READ address byte, answered (R85, R102). -/
theorem answered_addressRead {s : State} (ht : s.tstate = .started) (a : Addr7) (sym : Sym) (c : Bool × Byte) :
    answered (.wrb (abyte a 1)) sym c s =
      { s.record (sym.event c.1 c.2) with curAddr := a, curDir := .read, tstate := .rx } := by
  have hd : dirOf (abyte a 1) = .read := by rw [dirOf, getLsbD_abyte]; rfl
  simp only [answered, effect, State.record_tstate, ht, State.address, extractLsb'_abyte, hd]

/-- A data byte, answered, writes its event alone (R102). -/
theorem answered_data {s : State} (ht : s.tstate = .tx) (b : Byte) (sym : Sym) (c : Bool × Byte) :
    answered (.wrb b) sym c s = s.record (sym.event c.1 c.2) := by
  simp only [answered, effect, State.record_tstate, ht]

section
variable {s : State} (a : Addr7) (r : Byte) (cs : Nat → Bool × Byte)

/-- A START and a READ address byte: the S of RDCUR, the Sr of a read from a register (R131, R142). -/
theorem transfer_addressRead {sym : Sym} (h : requestStart s = .request sym) :
    Transfer [.start, .wrb (abyte a 1)] [sym, .write (abyte a 1)] ((List.range 2).map cs) s
      { s with
        pend := none, tstate := .rx, curAddr := a, curDir := .read
        trace := s.trace ++ eventsOf [sym, .write (abyte a 1)] ((List.range 2).map cs) } := by
  refine Transfer.of_eq (.cons h (.cons rfl (.nil _))) ?_
  rw [answered_addressRead rfl]
  dsimp only [answered, effect, State.record]

/-- The opening of a write transaction: S, the WRITE address byte, the sub-address (R134, R140). -/
theorem transfer_pointer (ht : s.tstate = .idle) :
    Transfer (seqPointer a r) [.start, .write (abyte a 0), .write r] ((List.range 3).map cs) s
      { s with
        pend := none, tstate := .tx, curAddr := a, curDir := .write
        trace := s.trace ++ eventsOf [.start, .write (abyte a 0), .write r] ((List.range 3).map cs) } := by
  have haddr := answered_addressWrite (s := answered .start .start (cs 0) s) rfl a (.write (abyte a 0)) (cs 1)
  refine Transfer.of_eq (.cons (requestStart_idle ht) (.cons rfl (.cons (sym := .write r) ?_ (.nil _)))) ?_
  · rw [haddr]
    rfl
  · rw [haddr, answered_data rfl]
    dsimp only [answered, effect, State.record]

/-- The bytes of a read and its STOP (R131 to R133, R142). -/
theorem transfer_bytes (n : Nat) : ∀ (o : Nat) (cs : Nat → Bool × Byte) {s : State}, s.tstate = .rx →
    Transfer (seqBytes o n) (symsBytes n) ((List.range (n + 2)).map cs) s
      (afterRead s.curAddr s.curDir o n cs (eventsOf (symsBytes n) ((List.range (n + 2)).map cs)) s) := by
  induction n with
  | zero =>
    intro o cs s ht
    have hcs : (List.range (0 + 2)).map cs = [cs 0, cs 1] := rfl
    have hsyms : symsBytes 0 = [.read false, .stop] := rfl
    rw [hcs, hsyms, seqBytes]
    refine Transfer.of_eq (.cons (requestRead_rx ht) (.cons rfl (.nil _))) ?_
    dsimp only [answered, effect, State.record, State.receive, afterRead, filled]
  | succ n ih =>
    intro o cs s ht
    have hcs : (List.range (n + 3)).map cs = cs 0 :: (List.range (n + 2)).map fun j => cs (j + 1) := by
      rw [List.range_succ_eq_map, List.map_cons, List.map_map]
      rfl
    have hnext : (answered (.rda o) (.read true) (cs 0) s).tstate = .rx := ht
    have hsyms : symsBytes (n + 1) = .read true :: symsBytes n := rfl
    rw [hcs, hsyms, seqBytes]
    refine Transfer.of_eq (.cons (requestRead_rx ht) (ih (o + 1) (fun j => cs (j + 1)) hnext)) ?_
    dsimp only [answered, effect, State.record, State.receive, afterRead, filled]

/-- A read's opening: the pointer, then an Sr and the READ address byte (R131 to R133). -/
theorem transfer_readFrom (ht : s.tstate = .idle) :
    Transfer (seqReadFrom a r) [.start, .write (abyte a 0), .write r, .repStart, .write (abyte a 1)]
      ((List.range 5).map cs) s
      { s with
        pend := none, tstate := .rx, curAddr := a, curDir := .read
        trace := s.trace ++ eventsOf [.start, .write (abyte a 0), .write r, .repStart, .write (abyte a 1)]
          ((List.range 5).map cs) } :=
  ((transfer_pointer a r cs ht).append (transfer_addressRead a (fun j => cs (3 + j)) (sym := .repStart) rfl)).of_eq rfl

/-- A read of n + 1 bytes from register r of device a (R131 to R133). -/
theorem transfer_read (o n : Nat) (ht : s.tstate = .idle) :
    Transfer (seqReadFrom a r ++ seqBytes o n) (symsRead a r n) ((List.range (n + 7)).map cs) s
      (afterRead a .read o n (fun j => cs (5 + j)) (eventsOf (symsRead a r n) ((List.range (n + 7)).map cs)) s) := by
  rw [show n + 7 = 5 + (n + 2) by omega, List.range_add, List.map_append, List.map_map]
  exact ((transfer_readFrom a r cs ht).append (transfer_bytes n o (fun j => cs (5 + j)) rfl)).of_eq rfl

/-- A read of n + 1 bytes from the device's current register (R142). -/
theorem transfer_current (n : Nat) (ht : s.tstate = .idle) :
    Transfer ([.start, .wrb (abyte a 1)] ++ seqBytes 0 n) (symsCurrent a n) ((List.range (n + 4)).map cs) s
      (afterRead a .read 0 n (fun j => cs (2 + j)) (eventsOf (symsCurrent a n) ((List.range (n + 4)).map cs)) s) := by
  rw [show n + 4 = 2 + (n + 2) by omega, List.range_add, List.map_append, List.map_map]
  exact ((transfer_addressRead a cs (requestStart_idle ht)).append (transfer_bytes n 0 (fun j => cs (2 + j)) rfl)).of_eq rfl

/-- WR1's transfers (R134). -/
theorem transfer_write (v : Byte) (ht : s.tstate = .idle) :
    Transfer (seqWr1 a r v) (symsWrite a r v) ((List.range 5).map cs) s
      (afterWrite a (eventsOf (symsWrite a r v) ((List.range 5).map cs)) s) :=
  ((transfer_pointer a r cs ht).append
    (.cons (m := .wrb v) (c := cs 3) rfl (.cons (m := .stop) (c := cs 4) rfl (.nil _)))).of_eq rfl

/-- SETPTR's transfers (R140). -/
theorem transfer_setptr (ht : s.tstate = .idle) :
    Transfer (seqSetptr a r) (symsPointer a r) ((List.range 4).map cs) s
      (afterWrite a (eventsOf (symsPointer a r) ((List.range 4).map cs)) s) :=
  ((transfer_pointer a r cs ht).append (.cons (m := .stop) (c := cs 3) rfl (.nil _))).of_eq rfl

end

/-! ### The statements on each composite -/

/-- In IDLE, the phase a composite ends in is the phase it began in (R130). -/
theorem ended_of_idle {s : State} (ht : s.tstate = .idle) : s.ended = { s.ended with tstate := .idle } := by
  rw [← ht]
  rfl

section
variable {i : Instr} {s : State} {a : Addr7} {syms : List Sym} {cs : List (Bool × Byte)} {ev : List BusEvent}
  {more : List Input} (hi : primitives i ≠ []) (hs : s.Ready) (hw : i.wf = true) (ht : s.tstate = .idle)
  (hin : s.inputs = answers cs ++ more)
include hi hs hw ht hin

/-- An answered read that ends with its transfers leaves the bytes in RXBUF, the last in RXDATA (R131, R133, R142). -/
theorem exec_read_answered (hfin : finish i = []) {o n : Nat} {ds : Nat → Bool × Byte} (ho : o + n < 32)
    (h : Transfer (busSteps i) syms cs s (afterRead a .read o n ds ev s)) :
    ∃ t, exec i s = .next t ∧
      t = { s.ended with
        inputs := more, pend := none, curAddr := a, curDir := .read, rxdata := some (ds n).2, rxbuf := t.rxbuf
        trace := s.trace ++ ev } ∧
      ∀ j, t.rx j = if o ≤ j ∧ j ≤ o + n then some (ds (j - o)).2 else s.rx j := by
  refine ⟨_, exec_composite_answered hi hs hw ht h hin, ?_, fun j => ?_⟩
  · rw [ended_of_idle ht, hfin]
    rfl
  · rw [hfin]
    exact rx_afterRead (a := a) (dir := .read) (ev := ev) ho j

/-- An answered write transaction leaves its events and XFER (R134, R140). -/
theorem exec_write_answered (hfin : finish i = []) (h : Transfer (busSteps i) syms cs s (afterWrite a ev s)) :
    exec i s = .next { s.ended with
      inputs := more, pend := none, curAddr := a, curDir := .write, trace := s.trace ++ ev } := by
  rw [exec_composite_answered hi hs hw ht h hin, ended_of_idle ht, hfin]
  rfl

end

/-- Settles O27: an answered read of one byte. -/
theorem rd1Rule : Obligations.Rd1Rule := by
  unfold Obligations.Rd1Rule
  intro s a r o cs more hs
  have hi : primitives (.rd1 a r o) ≠ [] := List.cons_ne_nil _ _
  refine ⟨fun ho ht hin => ?_, fun ho => exec_composite_violation hi hs (decide_eq_true ho),
    fun ho => exec_composite_illegal hi hs (decide_eq_false (not_lt_of_ge ho))⟩
  obtain ⟨t, hexec, heq, hrx⟩ := exec_read_answered hi hs (decide_eq_true ho) ht hin rfl ho
    (transfer_read a r cs o.toNat 0 ht)
  refine ⟨t, hexec, heq, fun j => (hrx j).trans ?_⟩
  rcases eq_or_ne j o.toNat with rfl | hj
  · simp
  · rw [if_neg hj, if_neg (by omega)]

/-- Two bytes big-endian as a number (R63, R64). -/
theorem bePair_eq (h l : Byte) : bePair h l = BitVec.ofNat 16 (h.toNat * 256 + l.toNat) := by
  apply BitVec.eq_of_toNat_eq
  rw [bePair, BitVec.toNat_append, ← Nat.shiftLeft_add_eq_or_of_lt l.isLt, Nat.shiftLeft_eq, BitVec.toNat_ofNat,
    Nat.mod_eq_of_lt (by omega)]

/-- Settles O28: an answered read of two bytes, then the RX16 write. -/
theorem rd2Rule : Obligations.Rd2Rule := by
  unfold Obligations.Rd2Rule
  intro s a r o cs more hs
  have hi : primitives (.rd2 a r o) ≠ [] := List.cons_ne_nil _ _
  refine ⟨fun ho ht hmore hin => ?_, fun ho => exec_composite_violation hi hs (decide_eq_true ho),
    fun ho => exec_composite_illegal hi hs (decide_eq_false (not_le_of_gt ho))⟩
  have hread := transfer_read a r cs o.toNat 1 ht
  have hrx := fun j => rx_afterRead (a := a) (dir := .read) (n := 1) (ds := fun j => cs (5 + j))
    (ev := eventsOf (symsRead a r 1) ((List.range 8).map cs)) (s := s) (show o.toNat + 1 < 32 by omega) j
  have hh := (hrx o.toNat).trans (if_pos (by omega))
  have hl := (hrx (o.toNat + 1)).trans (if_pos (by omega))
  rw [Nat.sub_self] at hh
  rw [Nat.add_sub_cancel_left] at hl
  have hexec := exec_composite_answered hi hs (decide_eq_true ho) ht hread hin
  refine ⟨_, hexec.trans (congrArg _ (run_latchRx16 hh hl hmore _)), ?_, fun j => (hrx j).trans ?_⟩
  · rw [ended_of_idle ht, bePair_eq]
    rfl
  · rcases eq_or_ne j o.toNat with rfl | hj
    · simp
    · rcases eq_or_ne j (o.toNat + 1) with rfl | hj'
      · simp
      · rw [if_neg hj, if_neg hj', if_neg (by omega)]

/-- The counts R84 admits for RDBURST and RDCUR. -/
theorem wf_count_iff (n : Byte) : (decide (1 ≤ n.toNat) && decide (n.toNat ≤ Config.nmax)) = true ↔
    1 ≤ n.toNat ∧ n.toNat ≤ 32 := by
  simp

/-- RDBURST and RDCUR: a read of n bytes from element 0 on, whose opening takes k + 1 requests. -/
theorem counted_read_rule {i : Instr} {s : State} {a : Addr7} {n : Byte} {k : Nat} {syms : List Sym} {cs : Nat → Bool × Byte}
    {more : List Input} (hi : primitives i ≠ []) (hs : s.Ready) (hw : i.wf = true ↔ 1 ≤ n.toNat ∧ n.toNat ≤ 32)
    (hfin : finish i = [])
    (hread : 1 ≤ n.toNat → s.tstate = .idle →
      Transfer (busSteps i) syms ((List.range (n.toNat + (k + 2))).map cs) s
        (afterRead a .read 0 (n.toNat - 1) (fun j => cs (k + 1 + j))
          (eventsOf syms ((List.range (n.toNat + (k + 2))).map cs)) s)) :
    (1 ≤ n.toNat → n.toNat ≤ 32 → s.tstate = .idle →
      s.inputs = answers ((List.range (n.toNat + (k + 2))).map cs) ++ more →
      ∃ t, exec i s = .next t ∧
        t = { s.ended with
          inputs := more, pend := none, curAddr := a, curDir := .read, rxdata := some (cs (n.toNat + k)).2
          rxbuf := t.rxbuf, trace := s.trace ++ eventsOf syms ((List.range (n.toNat + (k + 2))).map cs) } ∧
        ∀ j, t.rx j = if j < n.toNat then some (cs (k + 1 + j)).2 else s.rx j) ∧
    (1 ≤ n.toNat → n.toNat ≤ 32 → s.tstate ≠ .idle → exec i s = .next (faultState .protocolViolation (encode i) s)) ∧
    (n.toNat = 0 ∨ 32 < n.toNat → exec i s = .next (faultState .illegalCommand (encode i) s)) := by
  refine ⟨fun h1 h32 ht hin => ?_, fun h1 h32 => exec_composite_violation hi hs (hw.2 ⟨h1, h32⟩),
    fun hn => exec_composite_illegal hi hs (Bool.eq_false_iff.2 (mt hw.1 (by omega)))⟩
  obtain ⟨t, hexec, heq, hrx⟩ := exec_read_answered hi hs (hw.2 ⟨h1, h32⟩) ht hin hfin (by omega) (hread h1 ht)
  rw [show k + 1 + (n.toNat - 1) = n.toNat + k by omega] at heq
  exact ⟨t, hexec, heq, fun j => (hrx j).trans (if_congr (by omega) rfl rfl)⟩

/-- Settles O29: an answered read of n bytes from element 0 on, its opening of five requests. -/
theorem rdburstRule : Obligations.RdburstRule := by
  unfold Obligations.RdburstRule
  intro s a r n cs more hs
  refine counted_read_rule (k := 4) (List.cons_ne_nil _ _) hs (wf_count_iff n) rfl fun h1 ht => ?_
  have hread := transfer_read a r cs 0 (n.toNat - 1) ht
  rwa [show n.toNat - 1 + 7 = n.toNat + 6 by omega] at hread

/-- Settles O30: an answered write, whatever the acknowledge bits. -/
theorem wr1Rule : Obligations.Wr1Rule := by
  unfold Obligations.Wr1Rule
  intro s a r v cs more hs
  have hi : primitives (.wr1 a r v) ≠ [] := List.cons_ne_nil _ _
  exact ⟨fun ht hin => exec_write_answered hi hs rfl ht hin rfl (transfer_write a r cs v ht),
    exec_composite_violation hi hs rfl⟩

/-- Settles O31: an answered pointer write. -/
theorem setptrRule : Obligations.SetptrRule := by
  unfold Obligations.SetptrRule
  intro s a r cs more hs
  have hi : primitives (.setptr a r) ≠ [] := List.cons_ne_nil _ _
  exact ⟨fun ht hin => exec_write_answered hi hs rfl ht hin rfl (transfer_setptr a r cs ht),
    exec_composite_violation hi hs rfl⟩

/-- Settles O32: an answered read of n bytes from the current register, its opening of two requests. -/
theorem rdcurRule : Obligations.RdcurRule := by
  unfold Obligations.RdcurRule
  intro s a n cs more hs
  refine counted_read_rule (k := 1) (List.cons_ne_nil _ _) hs (wf_count_iff n) rfl fun h1 ht => ?_
  have hread := transfer_current a cs (n.toNat - 1) ht
  rwa [show n.toNat - 1 + 4 = n.toNat + 3 by omega] at hread

/-! ### Every composite with any answers -/

theorem length_byteCommands (n : Nat) : ∀ o, (byteCommands o n).length = n + 2 := by
  induction n with
  | zero => intro o; rfl
  | succ n ih => intro o; simp [byteCommands, ih]

/-- With as many answers as it has primitives, a composite's transfers are answered (R135), and those of RD2 leave the two bytes
of RX16. -/
theorem transfer_composite {i : Instr} {s : State} {cs : List (Bool × Byte)} (hi : primitives i ≠ []) (hw : i.wf = true)
    (ht : s.tstate = .idle) (hlen : cs.length = (primitives i).length) :
    ∃ t, Transfer (busSteps i) (requests i) cs s t ∧
      ∀ o, finish i = [.latchRx16 o] → ∃ h l, t.rx o = some h ∧ t.rx (o + 1) = some l := by
  obtain ⟨f, hf⟩ : ∃ f, cs = (List.range (primitives i).length).map f := by
    refine ⟨fun j => cs.getD j (false, 0), List.ext_getElem (by simpa using hlen) fun j hj _ => ?_⟩
    simp [hj]
  subst hf
  cases i
  case rd1 a r o => exact ⟨_, transfer_read a r f o.toNat 0 ht, nofun⟩
  case rd2 a r o =>
    have ho : o.toNat ≤ 30 := of_decide_eq_true hw
    refine ⟨_, transfer_read a r f o.toNat 1 ht, fun o' h => ?_⟩
    obtain rfl : o.toNat = o' := by simpa [finish] using h
    exact ⟨_, _, (rx_afterRead (by omega) _).trans (if_pos (by omega)), (rx_afterRead (by omega) _).trans (if_pos (by omega))⟩
  case rdburst a r n =>
    have h7 : (primitives (.rdburst a r n)).length = n.toNat - 1 + 7 := by simp [primitives, length_byteCommands]
    rw [h7]
    exact ⟨_, transfer_read a r f 0 (n.toNat - 1) ht, nofun⟩
  case wr1 a r v => exact ⟨_, transfer_write a r f v ht, nofun⟩
  case setptr a r => exact ⟨_, transfer_setptr a r f ht, nofun⟩
  case rdcur a n =>
    have h4 : (primitives (.rdcur a n)).length = n.toNat - 1 + 4 := by simp [primitives, length_byteCommands]
    rw [h4]
    exact ⟨_, transfer_current a f (n.toNat - 1) ht, nofun⟩
  all_goals exact absurd rfl hi

/-! ### Composites and their primitives (R136) -/

/-- Command `j` is the one transfer `m`, legal in every build. -/
def Primitive (j : Instr) (m : MStep) : Prop :=
  (∀ b calOk, stepsOf b calOk j = [m]) ∧ ∀ v, j.admitted v = true

theorem byteCommands_primitive (n : Nat) : ∀ o, o + n < 32 → List.Forall₂ Primitive (byteCommands o n) (seqBytes o n) := by
  have hindex : ∀ o, o < 32 → (BitVec.ofNat 8 o).toNat = o := fun o ho =>
    (BitVec.toNat_ofNat o 8).trans (Nat.mod_eq_of_lt (by omega))
  induction n with
  | zero =>
    intro o ho
    have hk := hindex o ho
    exact .cons ⟨fun _ _ => by rw [stepsOf, hk], fun v => by simpa [admitted_rdnk, hk] using ho⟩
      (.cons ⟨fun _ _ => rfl, fun _ => rfl⟩ .nil)
  | succ n ih =>
    intro o ho
    have hlt : o < 32 := by omega
    have hk := hindex o hlt
    exact .cons ⟨fun _ _ => by rw [stepsOf, hk], fun v => by simpa [admitted_rda, hk] using hlt⟩ (ih (o + 1) (by omega))

/-- The primitives of a composite are its transfers as commands. -/
theorem primitives_busSteps {i : Instr} (hi : primitives i ≠ []) (hw : i.wf = true) :
    List.Forall₂ Primitive (primitives i) (busSteps i) := by
  have hstart : Primitive .start .start := ⟨fun _ _ => rfl, fun _ => rfl⟩
  have hstop : Primitive .stop .stop := ⟨fun _ _ => rfl, fun _ => rfl⟩
  have hwrb : ∀ b, Primitive (.wrb b) (.wrb b) := fun _ => ⟨fun _ _ => rfl, fun _ => rfl⟩
  have hread : ∀ a r {o n}, o + n < 32 → List.Forall₂ Primitive
      ([.start, addrW a, .wrb r, .start, addrR a] ++ byteCommands o n) (seqReadFrom a r ++ seqBytes o n) := fun a r o n ho =>
    .cons hstart (.cons (hwrb _) (.cons (hwrb _) (.cons hstart (.cons (hwrb _) (byteCommands_primitive n o ho)))))
  cases i
  case rd1 a r o => exact hread a r (of_decide_eq_true hw)
  case rd2 a r o =>
    have ho : o.toNat ≤ 30 := of_decide_eq_true hw
    exact hread a r (by omega)
  case rdburst a r n =>
    obtain ⟨h1, h32⟩ := (wf_count_iff n).1 hw
    exact hread a r (by omega)
  case wr1 a r v => exact .cons hstart (.cons (hwrb _) (.cons (hwrb _) (.cons (hwrb _) (.cons hstop .nil))))
  case setptr a r => exact .cons hstart (.cons (hwrb _) (.cons (hwrb _) (.cons hstop .nil)))
  case rdcur a n =>
    obtain ⟨h1, h32⟩ := (wf_count_iff n).1 hw
    exact .cons hstart (.cons (hwrb _) (byteCommands_primitive _ _ (by omega)))
  all_goals exact absurd rfl hi

/-- Answered transfers as commands one by one, each given to the block the one before left. -/
theorem execAll_transfer {ms : List MStep} {syms : List Sym} {cs : List (Bool × Byte)} {s t : State}
    (h : Transfer ms syms cs s t) {js : List Instr} (hjs : List.Forall₂ Primitive js ms) (hf : s.faulted = false)
    {more : List Input} (hmore : engineTurn more = some more) :
    execAll js (s.ended.withInputs (answers cs ++ more)) = .next (t.ended.withInputs more) := by
  induction h generalizing js with
  | nil => cases hjs; rfl
  | @cons m sym c ms syms cs s t request _ ih =>
    obtain ⟨j, js, ⟨hseq, hadm⟩, hrest, rfl⟩ := List.forall₂_cons_right_iff.1 hjs
    have hexec : exec j (s.ended.withInputs (answers (c :: cs) ++ more)) =
        .next ((answered m sym c s).ended.withInputs (answers cs ++ more)) := by
      rw [exec_primitive (s := s.ended.withInputs _) hseq ⟨hf, rfl, engineTurn_answers _ hmore⟩ (hadm _)]
      exact congrArg Host.Outcome.next (run_transfer (.cons request (.nil _)) (encode j) [] (answers cs ++ more))
    have hf' : (answered m sym c s).faulted = false := by rw [answered, effect_frame]; exact hf
    rw [execAll, hexec]
    exact ih hrest hf'

/-- A ready block takes a primitive as if the command before were just over. -/
theorem execAll_ended {js : List Instr} {ms : List MStep} (hjs : List.Forall₂ Primitive js ms) (hne : js ≠ []) {s : State}
    (hs : s.Ready) : execAll js s = execAll js (s.ended.withInputs s.inputs) := by
  cases hjs with
  | nil => exact absurd rfl hne
  | cons hj _ =>
    obtain ⟨hseq, hadm⟩ := hj
    obtain ⟨hf, hb, hturn⟩ := hs
    rw [execAll, execAll, exec_primitive hseq ⟨hf, hb, hturn⟩ (hadm _),
      exec_primitive (s := s.ended.withInputs s.inputs) hseq ⟨hf, rfl, hturn⟩ (hadm _)]
    rfl

/-- A composite's finish writes RX16 alone, and only RD2's writes it (R132). -/
theorem run_finish {i : Instr} {t : State} {more : List Input} (w : Word) (hmore : engineTurn more = some more)
    (hbytes : ∀ o, finish i = [.latchRx16 o] → ∃ h l, t.rx o = some h ∧ t.rx (o + 1) = some l) :
    ∃ x, run (finish i) ((inProgress w (finish i) t).withInputs more) = { t.ended with inputs := more, rx16 := x } ∧
      ((∀ a r o, i ≠ .rd2 a r o) → x = t.rx16) := by
  cases i
  case rd2 a r o =>
    obtain ⟨h, l, hh, hl⟩ := hbytes o.toNat rfl
    exact ⟨_, run_latchRx16 hh hl hmore w, fun hne => absurd rfl (hne a r o)⟩
  all_goals exact ⟨_, rfl, fun _ => rfl⟩

/-- Settles O33: a composite and its primitives perform the same transfers. -/
theorem compositeEqualsItsPrimitives : Obligations.CompositeEqualsItsPrimitives := by
  unfold Obligations.CompositeEqualsItsPrimitives
  intro i s cs more hi hw hs ht hlen hin hmore
  obtain ⟨t, htransfer, hbytes⟩ := transfer_composite hi hw ht hlen
  obtain ⟨x, hrun, hx⟩ := run_finish (encode i) hmore hbytes
  have hjs := primitives_busSteps hi hw
  refine ⟨_, t.ended.withInputs more, exec_composite_answered hi hs hw ht htransfer hin, ?_, ?_⟩
  · rw [execAll_ended hjs hi hs, hin]
    exact execAll_transfer htransfer hjs hs.1 hmore
  · rw [hrun]
    exact ⟨rfl, rfl, hx⟩

/-! ### What a composite's events count to (R135) -/

/-- The request an event completes (R100). -/
def requestOf : BusEvent → Sym
  | .start => .start
  | .repStart => .repStart
  | .stop => .stop
  | .write b _ => .write b
  | .read _ m => .read m
  | .delay ms => .delay ms

theorem map_requestOf_eventsOf {syms : List Sym} : ∀ {cs : List (Bool × Byte)}, syms.length = cs.length →
    (eventsOf syms cs).map requestOf = syms := by
  induction syms with
  | nil => intro cs _; rfl
  | cons sym syms ih =>
    intro cs h
    cases cs with
    | nil => cases h
    | cons c cs =>
      have hsym : requestOf (sym.event c.1 c.2) = sym := by cases sym <;> rfl
      exact congrArg₂ List.cons hsym (ih (Nat.succ.inj h))

section
variable (ev : List BusEvent)

theorem count_eq_count_requestOf {e : BusEvent} {sym : Sym} (h : ∀ e', e' = e ↔ requestOf e' = sym) :
    ev.count e = (ev.map requestOf).count sym := by
  have hp : (· == e) = (· == sym) ∘ requestOf := funext fun e' => by simp [h]
  rw [List.count, List.count, List.countP_map, hp]

theorem map_filter_eq_requestOf {p : BusEvent → Bool} {f : BusEvent → Bool} {q g : Sym → Bool}
    (hp : ∀ e, p e = q (requestOf e)) (hf : ∀ e, f e = g (requestOf e)) :
    (ev.filter p).map f = ((ev.map requestOf).filter q).map g := by
  rw [show p = q ∘ requestOf from funext hp, show f = g ∘ requestOf from funext hf, List.filter_map, List.map_map]

end

/-- A request for a byte (R103, R104). -/
def isRead : Sym → Bool
  | .read _ => true
  | _ => false

/-- The master's answer to the byte of a read: true is ACK (R100). -/
def masterAck : Sym → Bool
  | .read m => m
  | _ => false

/-- Settles O34: the counts of the events are those of the requests they complete. -/
theorem compositeTransactionCounts : Obligations.CompositeTransactionCounts := by
  unfold Obligations.CompositeTransactionCounts
  intro i s cs more hi hw hs ht hlen hin
  obtain ⟨t, h, -⟩ := transfer_composite hi hw ht hlen
  have hkeep : ∀ m ∈ finish i, ∀ u, (forget m u).trace = u.trace := by cases i <;> simp [finish, forget]
  refine ⟨_, eventsOf (requests i) cs, exec_composite_answered hi hs hw ht h hin,
    (run_frame (f := State.trace) (fun _ => rfl) hkeep _).trans h.trace, ?_⟩
  rw [count_eq_count_requestOf (sym := .start) _ fun e => by cases e <;> simp [requestOf],
    count_eq_count_requestOf (sym := .stop) _ fun e => by cases e <;> simp [requestOf],
    count_eq_count_requestOf (sym := .repStart) _ fun e => by cases e <;> simp [requestOf],
    map_filter_eq_requestOf (q := isRead) (g := masterAck) _ (fun e => by cases e <;> rfl) fun e => by cases e <;> rfl,
    map_requestOf_eventsOf h.length_eq]
  cases i
  case rd1 | rd2 | rdburst | wr1 | setptr | rdcur =>
    simp [requests, symsRead, symsCurrent, symsWrite, symsPointer, symsBytes, List.count_replicate, List.filter_cons,
      List.filter_replicate, isRead, masterAck]
  all_goals exact absurd rfl hi

end Sys2Proof.Proofs.RegisterAccess
end

section
/-! PROOFS. The arithmetic of the formulas under `wrap`, one operation at a time, as arithmetic on words of a fixed width (R10 to
R13). -/

namespace Sys2Proof.Proofs.WordArithmetic

open Sys2Proof Sys2Proof.Machine Sys2Proof.Proofs.Overflow

/-! ### Reductions -/

/-- The signed reduction of an integer is its word, read as signed. -/
theorem wrapS_eq_toInt (w : Nat) (v : Int) : wrapS w v = (BitVec.ofInt w v).toInt := (BitVec.toInt_ofInt v).symm

/-- The unsigned reduction of an integer is its word, read as unsigned. -/
theorem wrapU_eq_toNat (w : Nat) (v : Int) : wrapU w v = (BitVec.ofInt w v).toNat := by
  have hpos : 0 ≤ v % (2 ^ w : Nat) := Int.emod_nonneg _ (by positivity)
  rw [wrapU, BitVec.toNat_ofInt, Int.toNat_of_nonneg hpos]
  norm_cast

/-! ### Signed operations -/

theorem ofInt_sub (w : Nat) (x y : Int) : BitVec.ofInt w (x - y) = BitVec.ofInt w x - BitVec.ofInt w y := by
  rw [Int.sub_eq_add_neg, BitVec.ofInt_add, BitVec.ofInt_neg, BitVec.sub_eq_add_neg]

theorem ofInt_two_pow (w k : Nat) : BitVec.ofInt w (2 ^ k) = BitVec.twoPow w k :=
  BitVec.eq_of_toNat_eq (by rw [BitVec.toNat_twoPow, ← BitVec.toNat_ofNat, ← BitVec.ofInt_natCast, Nat.cast_pow]; rfl)

section
variable {w : Nat} (hw : 0 < w) (a b : Int)
include hw

theorem reduceS_word : reduceS .wrap w a = .ok (BitVec.ofInt w a).toInt := by
  rw [reduceS_wrap hw, wrapS_eq_toInt]

theorem addS_word : addS .wrap w a b = .ok (BitVec.ofInt w a + BitVec.ofInt w b).toInt := by
  rw [addS, reduceS_word hw, BitVec.ofInt_add]

theorem subS_word : subS .wrap w a b = .ok (BitVec.ofInt w a - BitVec.ofInt w b).toInt := by
  rw [subS, reduceS_word hw, ofInt_sub]

theorem mulS_word : mulS .wrap w a b = .ok (BitVec.ofInt w a * BitVec.ofInt w b).toInt := by
  rw [mulS, reduceS_word hw, BitVec.ofInt_mul]

theorem shlS_word (k : Nat) : shlS .wrap w a k = .ok (BitVec.ofInt w a <<< k).toInt := by
  rw [shlS, mulS_word hw, BitVec.shiftLeft_eq_mul_twoPow, ofInt_two_pow]

/-- That the quotient is reduced too is log 12. -/
theorem tdivS_word (x y : BitVec w) : tdivS .wrap w x.toInt y.toInt = .ok (x.sdiv y).toInt := by
  rw [tdivS, reduceS_wrap hw, wrapS, BitVec.toInt_sdiv]

end

section
variable {w : Nat} (x y : BitVec w)

theorem asr_word (k : Nat) : asr x.toInt k = (x.sshiftRight k).toInt := BitVec.toInt_sshiftRight.symm

theorem toInt_eq_zero_iff : x.toInt = 0 ↔ x = 0 := by
  simp [← BitVec.toInt_inj]

/-! ### Unsigned operations -/

theorem ofInt_toNat : BitVec.ofInt w x.toNat = x := by
  rw [BitVec.ofInt_natCast, BitVec.ofNat_toNat, BitVec.setWidth_eq]

theorem ofInt_udiv : BitVec.ofInt w ((x.toNat : Int) / y.toNat) = x / y := by
  rw [← Int.natCast_div, ← BitVec.toNat_udiv, ofInt_toNat]

theorem toNat_eq_zero_iff : (x.toNat : Int) = 0 ↔ x = 0 := by
  simp [← BitVec.toNat_inj]

end

/-! ### Coefficients as 32-bit operands (R165, R204) -/

theorem ofInt_toInt_half (c : Half) : BitVec.ofInt 32 c.toInt = c.signExtend 32 := rfl

theorem ofInt_toNat_half (c : Half) : BitVec.ofInt 32 c.toNat = c.zeroExtend 32 := by
  rw [BitVec.ofInt_natCast, BitVec.ofNat_toNat]

end Sys2Proof.Proofs.WordArithmetic
end

section
/-! PROOFS. The variant-A formulas (R166, R167): under `wrap` each is fixed-width arithmetic, and the reference results (R172). -/

namespace Sys2Proof.Proofs.FormulasA

open Sys2Proof Sys2Proof.Machine Sys2Proof.Proofs.Overflow Sys2Proof.Proofs.WordArithmetic

/-! ### The temperature (R166) -/

/-- Settles O39: operation by operation, each value of the formula is the word the fixed-width arithmetic computes. -/
theorem temperatureAWrapArithmetic : Obligations.TemperatureAWrapArithmetic := by
  unfold Obligations.TemperatureAWrapArithmetic
  intro ut ac5 ac6 mc md
  simp only [calcAT, refAT, Nat.ofNat_pos, subS_word, mulS_word, addS_word, shlS_word, tdivS_word, ok_bind, asr_word,
    BitVec.ofInt_toInt, ofInt_toInt_half, ofInt_toNat_half, toInt_eq_zero_iff]
  split <;> rfl

/-! ### The pressure (R167), part by part -/

theorem calcAPb3_word (b6 : Word) (ac1 ac2 b2 : Half) :
    calcAPb3 .wrap b6.toInt ac1.toInt ac2.toInt b2.toInt =
      .ok ((ac1.signExtend 32 * 4 + ((b2.signExtend 32 * (b6 * b6).sshiftRight 12).sshiftRight 11
        + (ac2.signExtend 32 * b6).sshiftRight 11) + 2).sshiftRight 2).toInt := by
  simp only [calcAPb3, Nat.ofNat_pos, mulS_word, addS_word, shlS_word, ok_bind, asr_word, BitVec.ofInt_toInt, ofInt_toInt_half,
    Config.oss, BitVec.shiftLeft_zero]
  rfl

theorem calcAPb4_word (b6 : Word) (ac3 ac4 b1 : Half) :
    calcAPb4 .wrap b6.toInt ac3.toInt ac4.toNat b1.toInt =
      .ok ((ac4.zeroExtend 32 * (((ac3.signExtend 32 * b6).sshiftRight 13
        + (b1.signExtend 32 * (b6 * b6).sshiftRight 12).sshiftRight 16 + 2).sshiftRight 2 + 32768)) >>> 15).toNat := by
  simp only [calcAPb4, Nat.ofNat_pos, mulS_word, addS_word, ok_bind, asr_word, BitVec.ofInt_toInt, ofInt_toInt_half,
    wrapU_eq_toNat, BitVec.ofInt_mul, ofInt_toNat_half, ofInt_toNat]
  rfl

theorem calcAPb7_word (up b3 : Word) : calcAPb7 up.toInt b3.toInt = ((up - b3) * 50000).toNat := by
  simp only [calcAPb7, wrapU_eq_toNat, ofInt_sub, BitVec.ofInt_mul, ofInt_toNat, BitVec.ofInt_toInt]
  rfl

/-- Both branches of R167 on B7 are unsigned divisions. -/
theorem calcAPquotient_word (b7 b4 : Word) :
    calcAPquotient b7.toNat b4.toNat = (if b7 < 0x80000000 then b7 * 2 / b4 else b7 / b4 * 2).toInt := by
  have hlt : ((b7.toNat : Int) < 0x80000000) ↔ b7 < 0x80000000 := by
    rw [BitVec.lt_def]
    norm_cast
  simp only [calcAPquotient, hlt, wrapS_eq_toInt, wrapU_eq_toNat, BitVec.ofInt_mul, ofInt_udiv, ofInt_toNat]
  split <;> rfl

theorem calcAPfinal_word (p : Word) : calcAPfinal .wrap p.toInt =
    .ok (p + ((p.sshiftRight 8 * p.sshiftRight 8 * 3038).sshiftRight 16 + (-7357 * p).sshiftRight 16 + 3791).sshiftRight
      4).toInt := by
  simp only [calcAPfinal, Nat.ofNat_pos, mulS_word, addS_word, ok_bind, asr_word, BitVec.ofInt_toInt]
  rfl

/-- Settles O40: part by part, each value of the formula is the word the fixed-width arithmetic computes. -/
theorem pressureAWrapArithmetic : Obligations.PressureAWrapArithmetic := by
  unfold Obligations.PressureAWrapArithmetic
  intro up b5 ac1 ac2 ac3 ac4 b1 b2
  have hb6 : subS .wrap 32 b5.toInt 4000 = .ok (b5 - 4000).toInt := by
    rw [subS_word (by decide), BitVec.ofInt_toInt]
    rfl
  simp only [calcAP, refAP, hb6, ok_bind, calcAPb3_word, calcAPb4_word, calcAPb7_word, toNat_eq_zero_iff, calcAPquotient_word,
    calcAPfinal_word]
  split <;> rfl

/-! ### The reference results (R172) -/

/-- Settles O41: the two computations, run in each mode. -/
theorem referenceResultsA : Obligations.ReferenceResultsA := by
  unfold Obligations.ReferenceResultsA
  intro m
  cases m with
  | wrap => decide
  | fault => decide

end Sys2Proof.Proofs.FormulasA
end

section
/-! PROOFS. The variant-A datapath commands (R161 to R167): a datapath step as a command, what each step computes from its
operands, and the commands' statements. -/

namespace Sys2Proof.Proofs.DatapathA

open Sys2Proof Sys2Proof.Machine Sys2Proof.Proofs.Steps Sys2Proof.Proofs.Transport Sys2Proof.Proofs.RegisterAccess

/-! ### A datapath step as a command -/

/-- What the command of a datapath step leaves: its step's state with the handshake over, or its step's fault (R24, R244). -/
def outcome (i : Instr) (s : State) : Except FaultCode State → State
  | .ok t => t.ended
  | .error c => faultState c (encode i) s

/-- A datapath command performs its one step and is over (R90). -/
theorem exec_datapath {i : Instr} {m : MStep} {step : State → Except FaultCode State} {s : State} {r : Except FaultCode State}
    (hseq : ∀ b calOk, stepsOf b calOk i = [m]) (haction : ∀ u, action m u = internal (step u)) (hs : s.Ready)
    (ha : i.admitted s.build.variant = true) (hr : step (s.accept (encode i) [m]) = r) :
    exec i s = .next (outcome i s r) := by
  have hact : action m (s.accept (encode i) [m]) = internal r := (haction _).trans (congrArg internal hr)
  rw [exec_primitive hseq hs ha]
  obtain ⟨-, -, hturn⟩ := hs
  cases r with
  | ok t => exact congrArg Host.Outcome.next (run_done (s := s.accept _ _) hturn hact)
  | error c => exact congrArg Host.Outcome.next (run_fail (s := s.accept _ _) hturn hact)

section
variable {s : State} {r : Except FaultCode State} (hs : s.Ready) (hv : s.build.variant = .a)
include hs hv

theorem exec_ldcalA (hr : stepLdcalA (s.accept (encode .ldcalA) [.ldcalA]) = r) :
    exec .ldcalA s = .next (outcome .ldcalA s r) :=
  exec_datapath (fun _ _ => rfl) (fun _ => rfl) hs (by rw [hv]; rfl) hr

theorem exec_packAt (hr : stepPackAt (s.accept (encode .packAt) [.packAt]) = r) :
    exec .packAt s = .next (outcome .packAt s r) :=
  exec_datapath (fun _ _ => rfl) (fun _ => rfl) hs (by rw [hv]; rfl) hr

theorem exec_packAp (hr : stepPackAp (s.accept (encode .packAp) [.packAp]) = r) :
    exec .packAp s = .next (outcome .packAp s r) :=
  exec_datapath (fun _ _ => rfl) (fun _ => rfl) hs (by rw [hv]; rfl) hr

theorem exec_compAt (hr : stepCompAt (s.accept (encode .compAt) [.compAt]) = r) :
    exec .compAt s = .next (outcome .compAt s r) :=
  exec_datapath (fun _ _ => rfl) (fun _ => rfl) hs (by rw [hv]; rfl) hr

theorem exec_compAp (hr : stepCompAp (s.accept (encode .compAp) [.compAp]) = r) :
    exec .compAp s = .next (outcome .compAp s r) :=
  exec_datapath (fun _ _ => rfl) (fun _ => rfl) hs (by rw [hv]; rfl) hr

end

/-! ### The bytes of RXBUF (R31) -/

section
variable {s : State}

theorem rxWritten_iff {n : Nat} : s.rxWritten n = true ↔ ∀ j, j < n → s.rx j ≠ none := by
  simp [State.rxWritten, Option.isSome_iff_ne_none]

theorem rxByte_eq {j : Nat} {b : Byte} (h : s.rx j = some b) : s.rxByte j = b := by
  rw [State.rxByte, h, Option.getD_some]

/-! ### LDCAL_A (R161, R162) -/

/-- The state after LDCAL_A has loaded the coefficients. -/
def loadedA (s : State) : State :=
  { s with
    cal := s.calFromBurstA, calOk := sentinelOk (s.coefficient .big 0), drvState := .calLoaded, fineValid := false }

theorem stepLdcalA_reload (hd : s.drvState ≠ .uninit) : stepLdcalA s = .error .calReload := if_pos hd

theorem stepLdcalA_unwritten (hd : s.drvState = .uninit) (hn : ∃ j, j < 22 ∧ s.rx j = none) :
    stepLdcalA s = .error .unwrittenOperand := by
  have hw : ¬ s.rxWritten 22 = true := fun hw => by
    obtain ⟨j, hj, hnone⟩ := hn
    exact rxWritten_iff.1 hw j hj hnone
  simp [stepLdcalA, hd, hw]

section
variable {b : Nat → Byte} (hb : ∀ j, j < 22 → s.rx j = some (b j))
include hb

theorem stepLdcalA_written (hd : s.drvState = .uninit) : stepLdcalA s = .ok (loadedA s) := by
  have hw : s.rxWritten 22 = true := rxWritten_iff.2 fun j hj => by simp [hb j hj]
  simp [stepLdcalA, loadedA, hd, hw]

/-- The coefficients of the burst, big-endian; CAL[11] is left (R160). -/
theorem loadedA_cal (k : Fin 12) : (loadedA s).cal[k] =
    if k.val < 11 then BitVec.ofNat 16 ((b (2 * k.val)).toNat * 256 + (b (2 * k.val + 1)).toNat) else s.cal[k] := by
  have hget : (loadedA s).cal[k] = if k.val < 11 then s.coefficient .big k.val else s.cal[k] :=
    Vector.getElem_ofFn k.isLt
  rw [hget]
  split
  next hk =>
    rw [State.coefficient, rxByte_eq (hb (2 * k.val) (by omega)), rxByte_eq (hb (2 * k.val + 1) (by omega)), bePair_eq]
  next => rfl

end

/-- CAL_OK is the sentinel test of the first coefficient loaded. -/
theorem loadedA_calOk : (loadedA s).calOk = true ↔ (loadedA s).cal[0] ≠ 0x0000 ∧ (loadedA s).cal[0] ≠ 0xFFFF := by
  have h0 : (loadedA s).cal[0] = s.coefficient .big 0 := Vector.getElem_ofFn (by decide)
  rw [h0]
  simp [loadedA, sentinelOk]

/-! ### PACK_AT and PACK_AP (R163, R164) -/

theorem rxWritten_two : s.rxWritten 2 = ((s.rx 0).isSome && (s.rx 1).isSome) := by
  simp [State.rxWritten, List.range_succ]

theorem rxWritten_three : s.rxWritten 3 = ((s.rx 0).isSome && (s.rx 1).isSome && (s.rx 2).isSome) := by
  simp [State.rxWritten, List.range_succ, Bool.and_assoc]

/-- Two bytes big-endian, zero-extended. -/
theorem setWidth_bePair (h l : Byte) : (bePair h l).setWidth 32 = BitVec.ofNat 32 (h.toNat * 256 + l.toNat) := by
  rw [bePair_eq, BitVec.setWidth_ofNat_of_le_of_lt (by decide) (by omega)]

/-- With oss = 0 the XLSB byte is shifted out. -/
theorem packAp_eq_bePair (b0 b1 b2 : Byte) : packAp b0 b1 b2 = (bePair b0 b1).setWidth 32 := by
  ext k hk
  grind [packAp, bePair, Config.oss]

theorem stepPackAt_written {b0 b1 : Byte} (h0 : s.rx 0 = some b0) (h1 : s.rx 1 = some b1) :
    stepPackAt s = .ok { s with rawT := some (BitVec.ofNat 32 (b0.toNat * 256 + b1.toNat)) } := by
  simp [stepPackAt, rxWritten_two, h0, h1, rxByte_eq h0, rxByte_eq h1, setWidth_bePair]

theorem stepPackAt_unwritten (hn : s.rx 0 = none ∨ s.rx 1 = none) : stepPackAt s = .error .unwrittenOperand := by
  rcases hn with h | h <;> simp [stepPackAt, rxWritten_two, h]

theorem stepPackAp_written {b0 b1 b2 : Byte} (h0 : s.rx 0 = some b0) (h1 : s.rx 1 = some b1) (h2 : s.rx 2 = some b2) :
    stepPackAp s = .ok { s with rawP := some (BitVec.ofNat 32 (b0.toNat * 256 + b1.toNat)) } := by
  simp [stepPackAp, rxWritten_three, h0, h1, h2, rxByte_eq h0, rxByte_eq h1, packAp_eq_bePair, setWidth_bePair]

theorem stepPackAp_unwritten (hn : s.rx 0 = none ∨ s.rx 1 = none ∨ s.rx 2 = none) :
    stepPackAp s = .error .unwrittenOperand := by
  rcases hn with h | h | h <;> simp [stepPackAp, rxWritten_three, h]

/-! ### COMP_AT (R166) -/

theorem stepCompAt_uncalibrated (hc : s.calOk = false) : stepCompAt s = .ok { s with tOut := some 0 } := by
  simp [stepCompAt, hc]

theorem stepCompAt_unwritten (hc : s.calOk = true) (hr : s.rawT = none) : stepCompAt s = .error .unwrittenOperand := by
  simp [stepCompAt, hc, hr]

/-- A written raw sample under a valid calibration gives the outcome of the formula. -/
theorem stepCompAt_calibrated {ut : Word} {r : Except FaultCode (Int × Int)} (hc : s.calOk = true) (hr : s.rawT = some ut)
    (hcalc : calcAT s.build.overflowMode ut.toInt s.cal[4].toNat s.cal[5].toNat s.cal[9].toInt s.cal[10].toInt = r) :
    stepCompAt s = storeTemperature r s := by
  simp only [stepCompAt, hc, hr, ← hcalc]
  rfl

/-! ### COMP_AP (R167, R280) -/

theorem stepCompAp_uncalibrated (hc : s.calOk = false) :
    stepCompAp s = .ok { s with pOut := some 0, fineValid := false } := by
  simp [stepCompAp, hc]

section
variable (hc : s.calOk = true)
include hc

theorem stepCompAp_stale (hf : s.fineValid = false) : stepCompAp s = .error .staleFine := by
  simp [stepCompAp, hc, hf]

variable (hf : s.fineValid = true)
include hf

theorem stepCompAp_unwritten (hr : s.rawP = none) : stepCompAp s = .error .unwrittenOperand := by
  simp [stepCompAp, hc, hf, hr]

/-- A written raw sample and a valid fine temperature under a valid calibration give the outcome of the formula. -/
theorem stepCompAp_calibrated {up b5 : Word} {r : Except FaultCode Int} (hr : s.rawP = some up) (hb5 : s.fine = some b5)
    (hcalc : calcAP s.build.overflowMode up.toInt b5.toInt s.cal[0].toInt s.cal[1].toInt s.cal[2].toInt s.cal[3].toNat
      s.cal[6].toInt s.cal[7].toInt = r) :
    stepCompAp s = storePressure r s := by
  simp only [stepCompAp, hc, hf, hr, hb5, ← hcalc]
  rfl

end

end

/-! ### The statements on the datapath commands -/

/-- Settles O35: LDCAL_A's step with all bytes written, after a load, and with a byte missing. -/
theorem ldcalARule : Obligations.LdcalARule := by
  unfold Obligations.LdcalARule
  intro s hs hv
  exact ⟨fun _ hd hb =>
      ⟨_, exec_ldcalA hs hv (stepLdcalA_written hb hd), rfl, loadedA_cal (s := s.accept _ _) hb, loadedA_calOk⟩,
    fun hd => exec_ldcalA hs hv (stepLdcalA_reload hd),
    fun hd hn => exec_ldcalA hs hv (stepLdcalA_unwritten hd hn)⟩

/-- Settles O36: the two packing steps, with their bytes written and with one missing. -/
theorem packRules : Obligations.PackRules := by
  unfold Obligations.PackRules
  intro s hs hv
  exact ⟨fun _ _ h0 h1 => exec_packAt hs hv (stepPackAt_written h0 h1),
    fun hn => exec_packAt hs hv (stepPackAt_unwritten hn),
    fun _ _ _ h0 h1 h2 => exec_packAp hs hv (stepPackAp_written h0 h1 h2),
    fun hn => exec_packAp hs hv (stepPackAp_unwritten hn)⟩

/-- Settles O37: COMP_AT's step on each path, in the order of R246. -/
theorem compAtRule : Obligations.CompAtRule := by
  unfold Obligations.CompAtRule
  intro s hs hv
  exact ⟨fun hc => exec_compAt hs hv (stepCompAt_uncalibrated hc),
    fun hc hr => exec_compAt hs hv (stepCompAt_unwritten hc hr),
    fun _ _ _ hc hr hcalc => exec_compAt hs hv (stepCompAt_calibrated hc hr hcalc),
    fun _ _ hc hr hcalc => exec_compAt hs hv (stepCompAt_calibrated hc hr hcalc)⟩

/-- Settles O38: COMP_AP's step on each path, in the order of R246. -/
theorem compApRule : Obligations.CompApRule := by
  unfold Obligations.CompApRule
  intro s hs hv
  exact ⟨fun hc => exec_compAp hs hv (stepCompAp_uncalibrated hc),
    fun hc hf => exec_compAp hs hv (stepCompAp_stale hc hf),
    fun hc hf hr => exec_compAp hs hv (stepCompAp_unwritten hc hf hr),
    fun _ _ _ hc hf hr hb5 hcalc => exec_compAp hs hv (stepCompAp_calibrated (s := s.accept _ _) hc hf hr hb5 hcalc),
    fun _ _ _ hc hf hr hb5 hcalc => exec_compAp hs hv (stepCompAp_calibrated (s := s.accept _ _) hc hf hr hb5 hcalc)⟩

end Sys2Proof.Proofs.DatapathA
end

section
/-! PROOFS. The variant-A driver commands INIT_A and SAMPLE_A (R170, R171): the engine performing the steps of a command in
progress that are done at once, the transfers of the two commands, and their statements. -/

namespace Sys2Proof.Proofs.DriverA

open Sys2Proof Sys2Proof.Machine Sys2Proof.Proofs.Steps Sys2Proof.Proofs.Transport Sys2Proof.Proofs.RegisterAccess
open Sys2Proof.Proofs.DatapathA

/-! ### Steps done at once in a command in progress -/

/-- The block with steps left of the command of word `w`, and inputs to come. -/
abbrev underway (w : Word) (rest : List MStep) (more : List Input) (s : State) : State :=
  (inProgress w rest s).withInputs more

section
variable {w : Word} {rest : List MStep} {more : List Input} {s t : State}

/-- A step done at once leaves the handshake to the command's rest. -/
theorem run_underway_done {m : MStep} (hmore : engineTurn more = some more)
    (hdone : action m (underway w (m :: rest) more s) = .done (underway w (m :: rest) more t)) :
    run (m :: rest) (underway w (m :: rest) more s) = run rest (underway w rest more t) := by
  rw [run_done (s := underway w (m :: rest) more s) hmore hdone]
  cases rest <;> rfl

/-- RD2's last step within a command (R132). -/
theorem run_underway_latch {o : Nat} {h l : Byte} (hmore : engineTurn more = some more) (hh : s.rx o = some h)
    (hl : s.rx (o + 1) = some l) :
    run (.latchRx16 o :: rest) (underway w (.latchRx16 o :: rest) more s) =
      run rest (underway w rest more { s with rx16 := some (bePair h l) }) :=
  run_underway_done hmore (congrArg internal (stepLatchRx16_written (s := underway w _ more s) hh hl))

end

section
variable {i : Instr} {rest : List MStep} {s : State} (hs : s.Ready) (ha : i.admitted s.build.variant = true)
  (hsteps : stepsOf s.build s.calOk i = .requireIdle :: rest)
include hs ha hsteps

/-- A command that requires IDLE starts its other steps there (R130). -/
theorem exec_idle (ht : s.tstate = .idle) :
    exec i s = .next (run rest (underway (encode i) rest s.inputs s)) := by
  obtain ⟨hf, hb, hturn⟩ := hs
  rw [exec_eq_command, command_ready hf hb ha, hsteps,
    run_done (s := s.accept _ _) hturn (action_requireIdle ht), retire_accept]
  rfl

/-- A command that requires IDLE faults elsewhere, before any event (R130, R244). -/
theorem exec_not_idle (ht : s.tstate ≠ .idle) : exec i s = .next (faultState .protocolViolation (encode i) s) := by
  obtain ⟨hf, hb, hturn⟩ := hs
  rw [exec_eq_command, command_ready hf hb ha, hsteps]
  exact congrArg Host.Outcome.next (run_fail (s := s.accept _ _) hturn (if_neg ht))

end

/-! ### SAMPLE_A's measurements (R171) -/

/-- A delay leaves its event alone (R100). -/
theorem transfer_delay (ms : Nat) (c : Bool × Byte) (s : State) :
    Transfer [.delay ms] [.delay ms] [c] s (s.record (.delay ms)) :=
  .cons rfl (.nil _)

/-- One conversion: its trigger written, its settle time waited for, two result bytes read. -/
def seqConvert (a : Addr7) (trigger : Byte) (ms : Nat) : List MStep :=
  seqWr1 a regCtrl trigger ++ [.delay ms] ++ (seqReadFrom a regResultA ++ seqBytes 0 1)

/-- The requests of a conversion. -/
def symsConvert (a : Addr7) (trigger : Byte) (ms : Nat) : List Sym :=
  symsWrite a 0xF4 trigger ++ [.delay ms] ++ symsRead a 0xF6 1

/-- The block after an answered conversion, its two bytes in RXBUF[0] and RXBUF[1]. -/
def resultRead (a : Addr7) (trigger : Byte) (ms : Nat) (cs : Nat → Bool × Byte) (s : State) : State :=
  afterRead a .read 0 1 (fun j => cs (11 + j)) (eventsOf (symsConvert a trigger ms) ((List.range 14).map cs)) s

/-- The block after an answered conversion and the write of RX16. -/
def converted (a : Addr7) (trigger : Byte) (ms : Nat) (cs : Nat → Bool × Byte) (s : State) : State :=
  { resultRead a trigger ms cs s with rx16 := some (BitVec.ofNat 16 ((cs 11).2.toNat * 256 + (cs 12).2.toNat)) }

/-- The block after the temperature's measurement and PACK_AT. -/
def measuredT (a : Addr7) (cs : Nat → Bool × Byte) (s : State) : State :=
  { converted a trigTempA Config.tConvT cs s with
    rawT := some (BitVec.ofNat 32 ((cs 11).2.toNat * 256 + (cs 12).2.toNat)) }

/-- The block after the pressure's conversion and the read of its XLSB byte into RXBUF[2]. -/
def xlsbRead (a : Addr7) (cs : Nat → Bool × Byte) (s : State) : State :=
  afterRead a .read 2 0 (fun j => cs (19 + j)) (eventsOf (symsRead a 0xF8 0) ((List.range 7).map fun j => cs (14 + j)))
    (converted a trigPressA Config.tConvP cs s)

/-- The block after the pressure's measurement and PACK_AP. -/
def measuredP (a : Addr7) (cs : Nat → Bool × Byte) (s : State) : State :=
  { xlsbRead a cs s with rawP := some (BitVec.ofNat 32 ((cs 11).2.toNat * 256 + (cs 12).2.toNat)) }

/-- The steps of SAMPLE_A with a valid calibration, measurement by measurement. -/
theorem seqSampleA_calibrated (a : Addr7) : seqSampleA true a = .requireIdle ::
    (seqConvert a trigTempA Config.tConvT ++ .latchRx16 0 :: .packAt :: .compAt ::
      (seqConvert a trigPressA Config.tConvP ++ .latchRx16 0 :: (seqRd1 a regXlsbA 2 ++ [.packAp, .compAp]))) := rfl

section
variable (a : Addr7) (trigger : Byte) (ms : Nat) (cs : Nat → Bool × Byte) (s : State)

theorem rx_resultRead (j : Nat) : (resultRead a trigger ms cs s).rx j =
    if j = 0 then some (cs 11).2 else if j = 1 then some (cs 12).2 else s.rx j := by
  rw [resultRead, rx_afterRead (by decide)]
  match j with
  | 0 => rfl
  | 1 => rfl
  | j + 2 => simp

theorem rx_xlsbRead (j : Nat) : (xlsbRead a cs s).rx j =
    if j = 0 then some (cs 11).2 else if j = 1 then some (cs 12).2 else if j = 2 then some (cs 19).2 else s.rx j := by
  have hconv : (converted a trigPressA Config.tConvP cs s).rx j = _ := rx_resultRead a trigPressA Config.tConvP cs s j
  rw [xlsbRead, rx_afterRead (by decide), hconv]
  match j with
  | 0 => rfl
  | 1 => rfl
  | 2 => rfl
  | j + 3 => simp

variable (ht : s.tstate = .idle)
include ht

theorem transfer_convert :
    Transfer (seqConvert a trigger ms) (symsConvert a trigger ms) ((List.range 14).map cs) s (resultRead a trigger ms cs s) :=
  (((transfer_write a regCtrl cs trigger ht).append (transfer_delay ms (cs 5) _)).append
    (transfer_read a regResultA (fun j => cs (6 + j)) 0 1 rfl)).of_eq rfl

variable (w : Word) (rest : List MStep) {more : List Input} (hmore : engineTurn more = some more)
include hmore

theorem run_convert :
    run (seqConvert a trigger ms ++ .latchRx16 0 :: rest)
        (underway w (seqConvert a trigger ms ++ .latchRx16 0 :: rest) (answers ((List.range 14).map cs) ++ more) s) =
      run rest (underway w rest more (converted a trigger ms cs s)) := by
  have hrx := rx_resultRead a trigger ms cs s
  rw [converted, ← bePair_eq, ← run_underway_latch (o := 0) hmore (hrx 0) (hrx 1)]
  exact run_transfer (transfer_convert a trigger ms cs s ht) w _ more

/-- The temperature's measurement, up to its formula. -/
theorem run_measureT :
    run (seqConvert a trigTempA Config.tConvT ++ .latchRx16 0 :: .packAt :: rest)
        (underway w (seqConvert a trigTempA Config.tConvT ++ .latchRx16 0 :: .packAt :: rest)
          (answers ((List.range 14).map cs) ++ more) s) =
      run rest (underway w rest more (measuredT a cs s)) := by
  have hrx := rx_resultRead a trigTempA Config.tConvT cs s
  rw [run_convert a _ _ cs s ht w (.packAt :: rest) hmore]
  exact run_underway_done hmore (congrArg internal
    (stepPackAt_written (s := underway w _ more (converted a trigTempA Config.tConvT cs s)) (hrx 0) (hrx 1)))

/-- The pressure's measurement, up to its formula. -/
theorem run_measureP :
    run (seqConvert a trigPressA Config.tConvP ++ .latchRx16 0 :: (seqRd1 a regXlsbA 2 ++ .packAp :: rest))
        (underway w (seqConvert a trigPressA Config.tConvP ++ .latchRx16 0 :: (seqRd1 a regXlsbA 2 ++ .packAp :: rest))
          (answers ((List.range 14).map cs) ++ (answers ((List.range 7).map fun j => cs (14 + j)) ++ more)) s) =
      run rest (underway w rest more (measuredP a cs s)) := by
  have hrd1 : Transfer (seqRd1 a regXlsbA 2) _ _ _ (xlsbRead a cs s) :=
    transfer_read a regXlsbA (fun j => cs (14 + j)) 2 0 rfl
  have hrx := rx_xlsbRead a cs s
  rw [run_convert a _ _ cs s ht w _ (engineTurn_answers _ hmore)]
  refine (run_transfer hrd1 w (.packAp :: rest) more).trans ?_
  exact run_underway_done hmore (congrArg internal
    (stepPackAp_written (s := underway w _ more (xlsbRead a cs s)) (hrx 0) (hrx 1) (hrx 2)))

end

/-! ### SAMPLE_A -/

/-- A raw sample of two bytes as a signed operand (R165). -/
theorem toInt_rawSample (h l : Byte) :
    (BitVec.ofNat 32 (h.toNat * 256 + l.toNat)).toInt = (h.toNat * 256 + l.toNat : Nat) := by
  have hh := h.isLt
  have hl := l.isLt
  rw [BitVec.toInt_ofNat', Int.bmod_eq_of_le_mul_two] <;> omega

theorem stepsOf_sampleA (b : Build) (calOk : Bool) (a : Addr7) :
    ∃ rest, stepsOf b calOk (.sampleA a) = .requireIdle :: rest := by
  cases calOk <;> exact ⟨_, rfl⟩

/-- The answers to the first m requests, and those to the next n. -/
theorem answers_range_add (m n : Nat) (cs : Nat → Bool × Byte) (more : List Input) :
    answers ((List.range (m + n)).map cs) ++ more =
      answers ((List.range m).map cs) ++ (answers ((List.range n).map fun j => cs (m + j)) ++ more) := by
  simp [answers, List.range_add, Function.comp_def]

/-- The block after the temperature's half of SAMPLE_A, its formula's results stored. -/
def sampledT (a : Addr7) (cs : Nat → Bool × Byte) (b5 t : Int) (s : State) : State :=
  { measuredT a cs s with fine := some (toReg b5), tOut := some (toReg t), fineValid := true }

/-- The block after both halves of SAMPLE_A. -/
def sampledA (a : Addr7) (cs : Nat → Bool × Byte) (b5 t p : Int) (s : State) : State :=
  { measuredP a (fun j => cs (14 + j)) (sampledT a cs b5 t s) with pOut := some (toReg p), fineValid := false }

section
variable {a : Addr7} {cs : Nat → Bool × Byte} {b5 t p : Int} {s : State} (hc : s.calOk = true)
  {w : Word} {rest : List MStep} {more : List Input} (hmore : engineTurn more = some more)
include hc hmore

/-- The temperature's formula within SAMPLE_A. -/
theorem run_compAt (hcalc : calcAT s.build.overflowMode ((cs 11).2.toNat * 256 + (cs 12).2.toNat : Nat)
      s.cal[4].toNat s.cal[5].toNat s.cal[9].toInt s.cal[10].toInt = .ok (b5, t)) :
    run (.compAt :: rest) (underway w (.compAt :: rest) more (measuredT a cs s)) =
      run rest (underway w rest more (sampledT a cs b5 t s)) := by
  rw [← toInt_rawSample] at hcalc
  exact run_underway_done hmore (congrArg internal
    (stepCompAt_calibrated (s := underway w (.compAt :: rest) more (measuredT a cs s)) hc rfl hcalc))

/-- The pressure's formula within SAMPLE_A. -/
theorem run_compAp {b5 : Word} (hf : s.fineValid = true) (hb5 : s.fine = some b5)
    (hcalc : calcAP s.build.overflowMode ((cs 11).2.toNat * 256 + (cs 12).2.toNat : Nat) b5.toInt
      s.cal[0].toInt s.cal[1].toInt s.cal[2].toInt s.cal[3].toNat s.cal[6].toInt s.cal[7].toInt = .ok p) :
    run (.compAp :: rest) (underway w (.compAp :: rest) more (measuredP a cs s)) =
      run rest (underway w rest more { measuredP a cs s with pOut := some (toReg p), fineValid := false }) := by
  rw [← toInt_rawSample] at hcalc
  exact run_underway_done hmore (congrArg internal
    (stepCompAp_calibrated (s := underway w (.compAp :: rest) more (measuredP a cs s)) hc hf rfl hb5 hcalc))

end

/-- What an answered SAMPLE_A leaves, RXBUF aside. -/
theorem sampledA_eq (a : Addr7) (cs : Nat → Bool × Byte) (b5 t p : Int) (s : State) : sampledA a cs b5 t p s =
    { s with
      pend := none, tstate := .idle, curAddr := a, curDir := .read, fineValid := false
      rawT := some (BitVec.ofNat 32 ((cs 11).2.toNat * 256 + (cs 12).2.toNat))
      rawP := some (BitVec.ofNat 32 ((cs 25).2.toNat * 256 + (cs 26).2.toNat))
      rx16 := some (BitVec.ofNat 16 ((cs 25).2.toNat * 256 + (cs 26).2.toNat))
      rxdata := some (cs 33).2, rxbuf := (sampledA a cs b5 t p s).rxbuf
      fine := some (toReg b5), tOut := some (toReg t), pOut := some (toReg p)
      trace := s.trace ++ eventsOf (symsSampleA a) ((List.range 35).map cs) } := by
  have htrace : eventsOf (symsSampleA a) ((List.range 35).map cs) =
      eventsOf (symsConvert a trigTempA Config.tConvT) ((List.range 14).map cs)
        ++ (eventsOf (symsConvert a trigPressA Config.tConvP) ((List.range 14).map fun j => cs (14 + j))
        ++ eventsOf (symsRead a 0xF8 0) ((List.range 7).map fun j => cs (14 + (14 + j)))) := rfl
  simp only [sampledA, sampledT, measuredP, measuredT, xlsbRead, converted, resultRead, afterRead, htrace, List.append_assoc,
    Nat.reduceAdd]

/-- Settles O43: the two measurements, each followed by its formula. -/
theorem sampleARule : Obligations.SampleARule := by
  unfold Obligations.SampleARule
  intro s a cs more b5 tr p hs hv
  have ha : (Instr.sampleA a).admitted s.build.variant = true := by rw [hv]; rfl
  refine ⟨fun hc ht hmore hin hcalcT hcalcP => ?_, ?_⟩
  · have hsteps := (congrArg (seqSampleA · a) hc).trans (seqSampleA_calibrated a)
    have hin' := hin.trans ((answers_range_add 14 21 cs more).trans
      (congrArg _ (answers_range_add 14 7 (fun j => cs (14 + j)) more)))
    have hturn := engineTurn_answers ((List.range 7).map fun j => cs (14 + (14 + j))) hmore
    have hturn' := engineTurn_answers ((List.range 14).map fun j => cs (14 + j)) hturn
    have hrun : exec (.sampleA a) s = .next (underway (encode (.sampleA a)) [] more (sampledA a cs b5 tr p s)) := by
      rw [exec_idle hs ha hsteps ht, hin', run_measureT a cs s ht _ _ hturn', run_compAt hc hturn' hcalcT,
        run_measureP a (fun j => cs (14 + j)) (sampledT a cs b5 tr s) rfl _ [.compAp] hmore,
        run_compAp (cs := fun j => cs (14 + j)) (s := sampledT a cs b5 tr s) hc hmore rfl rfl hcalcP]
      rfl
    refine ⟨_, hrun, ?_, fun j => ?_⟩
    · rw [ended_of_idle ht]
      exact congrArg (underway (encode (.sampleA a)) [] more) (sampledA_eq a cs b5 tr p s)
    · refine (rx_xlsbRead a (fun j => cs (14 + j)) (sampledT a cs b5 tr s) j).trans ?_
      have hT : (sampledT a cs b5 tr s).rx j = _ := rx_resultRead a trigTempA Config.tConvT cs s j
      rw [hT]
      split_ifs <;> rfl
  · obtain ⟨rest, hsteps⟩ := stepsOf_sampleA s.build s.calOk a
    exact exec_not_idle hs ha hsteps

/-! ### INIT_A (R170) -/

/-- The block `t` differs from `s` only as identity reads into RXBUF[0] make it differ, and is in IDLE. -/
def IdentityRead (s t : State) : Prop :=
  t = { s with
    pend := t.pend, tstate := .idle, curAddr := t.curAddr, curDir := t.curDir, rxdata := t.rxdata, rxbuf := t.rxbuf
    trace := t.trace } ∧
  ∀ j, j ≠ 0 → t.rx j = s.rx j

/-- n identity reads, whatever their 7n answers. -/
theorem transfer_idReads (a : Addr7) (r : Byte) (n : Nat) : ∀ (cs : Nat → Bool × Byte) {s : State}, s.tstate = .idle →
    ∃ t, Transfer (seqIdReads a r n) (List.replicate n (symsRead a r 0)).flatten ((List.range (7 * n)).map cs) s t ∧
      IdentityRead s t := by
  induction n with
  | zero =>
    intro cs s ht
    exact ⟨s, .nil s, by rw [← ht], fun _ _ => rfl⟩
  | succ n ih =>
    intro cs s ht
    obtain ⟨t, hrest, heq, hrx⟩ := ih (fun j => cs (7 + j)) (s := afterRead a .read 0 0 _ _ s) rfl
    refine ⟨t, ?_, heq, fun j hj => ?_⟩
    · rw [show 7 * (n + 1) = 7 + 7 * n by omega, List.range_add, List.map_append, List.map_map]
      exact (transfer_read a r cs 0 0 ht).append hrest
    · rw [hrx j hj, rx_afterRead (by decide), if_neg (by omega)]

/-- The transfers of INIT_A: the delay, the identity reads, the calibration burst. -/
def initTransfers (b : Build) (a : Addr7) : List MStep :=
  [.delay b.tPwronA] ++ seqIdReads a b.idRegA b.nIdReads ++ seqBurst a regCalA 22

theorem stepsOf_initA (b : Build) (calOk : Bool) (a : Addr7) : stepsOf b calOk (.initA a) =
    .requireIdle :: .requireUninit :: (initTransfers b a ++ [.ldcalA, .setReady]) := by
  simp [stepsOf, seqInitA, initTransfers]

/-- Answers to n requests, counted. -/
theorem exists_map_range {n : Nat} {cs : List (Bool × Byte)} (h : cs.length = n) : ∃ f, cs = (List.range n).map f :=
  ⟨fun j => cs.getD j (false, 0), List.ext_getElem (by simp [h]) fun j hj _ => by simp [hj]⟩

theorem rx_of_rxbuf {s t : State} (h : t.rxbuf = s.rxbuf) (j : Nat) : t.rx j = s.rx j := by
  rw [State.rx, State.rx, h]

/-- The check before a calibration is loaded (R170). -/
theorem action_requireUninit {s : State} (hd : s.drvState = .uninit) : action .requireUninit s = .done s := if_pos hd

/-- What the answered transfers of INIT_A leave: the burst in RXBUF[0..21]. -/
theorem transfer_initA {s : State} (ht : s.tstate = .idle) (a : Addr7) {pre : List (Bool × Byte)} (cs : Nat → Bool × Byte)
    (hpre : pre.length = 1 + 7 * s.build.nIdReads) :
    ∃ t, Transfer (initTransfers s.build a) (symsInitA s.build a) (pre ++ (List.range 28).map cs) s t ∧
      t = { s with
        pend := none, tstate := .idle, curAddr := a, curDir := .read, rxdata := some (cs 26).2, rxbuf := t.rxbuf
        trace := s.trace ++ eventsOf (symsInitA s.build a) (pre ++ (List.range 28).map cs) } ∧
      ∀ j, t.rx j = if j < 22 then some (cs (5 + j)).2 else s.rx j := by
  obtain ⟨f, rfl⟩ := exists_map_range hpre
  obtain ⟨u, hreads, heq, hrx⟩ := transfer_idReads a s.build.idRegA s.build.nIdReads (fun j => f (1 + j))
    (s := s.record (.delay s.build.tPwronA)) ht
  have hu : u.tstate = .idle := by rw [heq]
  have hall := ((transfer_delay s.build.tPwronA (f 0) s).append hreads).append (transfer_read a regCalA cs 0 21 hu)
  rw [List.range_add, List.map_append, List.map_map]
  refine ⟨_, hall.of_eq rfl, ?_, fun j => ?_⟩
  · rw [heq]
    rfl
  · have hread := rx_afterRead (a := a) (dir := .read) (o := 0) (n := 21) (ds := fun j => cs (5 + j)) (ev := []) (s := u)
      (by decide) j
    refine (rx_of_rxbuf rfl j).trans (hread.trans ?_)
    by_cases hj : j < 22
    · rw [if_pos hj, if_pos (by omega)]
      rfl
    · rw [if_neg hj, if_neg (by omega)]
      exact hrx j (by omega)

/-- INIT_A whose transfers are answered and lead to `t` loads the burst's coefficients and is READY. -/
theorem exec_initA_answered {s t : State} {a : Addr7} {b : Nat → Byte} {syms : List Sym} {cs : List (Bool × Byte)}
    {more : List Input} (hs : s.Ready) (ha : (Instr.initA a).admitted s.build.variant = true) (ht : s.tstate = .idle)
    (hd : s.drvState = .uninit) (htransfer : Transfer (initTransfers s.build a) syms cs s t)
    (hin : s.inputs = answers cs ++ more) (hmore : engineTurn more = some more)
    (hbytes : ∀ j, j < 22 → t.rx j = some (b j)) (hdt : t.drvState = .uninit) :
    exec (.initA a) s = .next (underway (encode (.initA a)) [] more { loadedA t with drvState := .ready }) := by
  have ⟨_, _, hturn⟩ := hs
  have hload := stepLdcalA_written (s := underway (encode (.initA a)) [.ldcalA, .setReady] more t) hbytes hdt
  rw [exec_idle hs ha (stepsOf_initA s.build s.calOk a) ht,
    run_underway_done (m := .requireUninit) (t := s) hturn (action_requireUninit hd), hin, run_transfer htransfer,
    run_underway_done (m := .ldcalA) (t := loadedA t) hmore (congrArg internal hload),
    run_underway_done (m := .setReady) (t := { loadedA t with drvState := .ready }) hmore rfl]
  rfl

/-- Settles O42: the transfers, then the load of their bytes; a check that fails comes before them. -/
theorem initARule : Obligations.InitARule := by
  unfold Obligations.InitARule
  intro s a pre cs more hs hv
  have ha : (Instr.initA a).admitted s.build.variant = true := by rw [hv]; rfl
  have hsteps := stepsOf_initA s.build s.calOk a
  have ⟨_, _, hturn⟩ := hs
  refine ⟨fun ht hmore hd hpre hin => ?_, exec_not_idle hs ha hsteps, fun ht hd => ?_⟩
  · obtain ⟨t, htransfer, heq, hrx⟩ := transfer_initA ht a cs hpre
    have hbytes : ∀ j, j < 22 → t.rx j = some (cs (5 + j)).2 := fun j hj => (hrx j).trans (if_pos hj)
    have hdt : t.drvState = .uninit := by rw [heq]; exact hd
    have hcalt : t.cal = s.cal := by rw [heq]
    have hframe : ∀ (cal : Vector Half 12) (calOk : Bool), underway (encode (.initA a)) [] more
          { t with cal := cal, calOk := calOk, drvState := .ready, fineValid := false } =
        { s.ended with
          inputs := more, pend := none, drvState := .ready, fineValid := false, curAddr := a, curDir := .read
          rxdata := some (cs 26).2, rxbuf := t.rxbuf, cal := cal, calOk := calOk
          trace := s.trace ++ eventsOf (symsInitA s.build a) (pre ++ (List.range 28).map cs) } := fun _ _ => by
      rw [heq, ended_of_idle ht]
      rfl
    refine ⟨_, exec_initA_answered hs ha ht hd htransfer hin hmore hbytes hdt, hframe _ _, hrx, fun k => ?_, loadedA_calOk⟩
    rw [← hcalt, show 6 + 2 * k.val = 5 + (2 * k.val + 1) by omega]
    exact loadedA_cal hbytes k
  · rw [exec_idle hs ha hsteps ht]
    exact congrArg Host.Outcome.next (run_fail (s := underway _ _ _ s) hturn (if_neg hd))

end Sys2Proof.Proofs.DriverA
end

section
/-! PROOFS. The variant-B formulas (R206, R207): under `wrap` each is fixed-width arithmetic. -/

namespace Sys2Proof.Proofs.FormulasB

open Sys2Proof Sys2Proof.Machine Sys2Proof.Proofs.Overflow Sys2Proof.Proofs.WordArithmetic

/-! ### The temperature (R206) -/

/-- Settles O49: operation by operation, each value of the formula is the word the fixed-width arithmetic computes. -/
theorem temperatureBWrapArithmetic : Obligations.TemperatureBWrapArithmetic := by
  unfold Obligations.TemperatureBWrapArithmetic
  intro adcT t1 t2 t3
  simp only [calcBT, refBT, Nat.ofNat_pos, subS_word, mulS_word, addS_word, shlS_word, ok_bind, asr_word, BitVec.ofInt_toInt,
    ofInt_toInt_half, ofInt_toNat_half]
  rfl

/-! ### Operands of the pressure's 64 bits (R204) -/

theorem ofInt_toInt_signExtend {n : Nat} (w : Nat) (c : BitVec n) : BitVec.ofInt w c.toInt = c.signExtend w := rfl

theorem ofInt_toNat_zeroExtend {n : Nat} (w : Nat) (c : BitVec n) : BitVec.ofInt w c.toNat = c.zeroExtend w := by
  rw [BitVec.ofInt_natCast, BitVec.ofNat_toNat]

/-- The store of a 64-bit result in a 32-bit register keeps its low bits (R10, R29). -/
theorem ofInt_toInt_setWidth {w n : Nat} (h : n ≤ w) (x : BitVec w) : BitVec.ofInt n x.toInt = x.setWidth n := by
  rw [← BitVec.signExtend_eq_setWidth_of_le _ h]
  rfl

/-! ### The pressure (R207), part by part -/

theorem calcBPvar2_word (v : BitVec 64) (p4 p5 p6 : Half) :
    calcBPvar2 .wrap v.toInt p4.toInt p5.toInt p6.toInt =
      .ok (v * v * p6.signExtend 64 + ((v * p5.signExtend 64) <<< 17) + (p4.signExtend 64 <<< 35)).toInt := by
  simp only [calcBPvar2, Nat.ofNat_pos, mulS_word, addS_word, shlS_word, ok_bind, BitVec.ofInt_toInt, ofInt_toInt_signExtend]

theorem calcBPden_word (f : Word) (p1 p2 p3 : Half) :
    calcBPden .wrap (f.signExtend 64 - 128000).toInt p1.toNat p2.toInt p3.toInt = .ok (refBPden f p1 p2 p3).toInt := by
  simp only [calcBPden, refBPden, Nat.ofNat_pos, mulS_word, addS_word, shlS_word, ok_bind, asr_word, BitVec.ofInt_toInt,
    ofInt_toInt_signExtend, ofInt_toNat_zeroExtend]
  rfl

theorem calcBPfinal_word (adcP : Word) (var2 den : BitVec 64) (p7 p8 p9 : Half) {p : BitVec 64}
    (hp : ((((1048576 - adcP.zeroExtend 64) <<< 31) - var2) * 3125).sdiv den = p) :
    calcBPfinal .wrap adcP.toNat var2.toInt den.toInt p7.toInt p8.toInt p9.toInt =
      .ok ((p + (p9.signExtend 64 * p.sshiftRight 13 * p.sshiftRight 13).sshiftRight 25
        + (p8.signExtend 64 * p).sshiftRight 19).sshiftRight 8 + (p7.signExtend 64 <<< 4)).toInt := by
  subst hp
  simp only [calcBPfinal, Nat.ofNat_pos, subS_word, mulS_word, addS_word, shlS_word, tdivS_word, ok_bind, asr_word,
    BitVec.ofInt_toInt, ofInt_toInt_signExtend, ofInt_toNat_zeroExtend]
  rfl

/-- Settles O50: part by part, each value of the formula is the word the fixed-width arithmetic computes, and a zero denominator
ends it with 0. -/
theorem pressureBWrapArithmetic : Obligations.PressureBWrapArithmetic := by
  unfold Obligations.PressureBWrapArithmetic
  intro adcP f p1 p2 p3 p4 p5 p6 p7 p8 p9
  have hvar1 : subS .wrap 64 f.toInt 128000 = .ok (f.signExtend 64 - 128000).toInt := subS_word (by decide) _ _
  simp only [calcBP, hvar1, ok_bind, calcBPvar2_word, calcBPden_word, toInt_eq_zero_iff, calcBPfinal_word _ _ _ _ _ _ rfl]
  by_cases hden : refBPden f p1 p2 p3 = 0
  · exact ⟨0, if_pos hden, (if_pos hden).symm⟩
  · refine ⟨_, if_neg hden, ?_⟩
    rw [if_neg hden, ofInt_toInt_setWidth (by decide)]
    rfl

end Sys2Proof.Proofs.FormulasB
end

section
/-! PROOFS. The variant-B datapath commands (R201 to R207): what each step computes from its operands, and the commands'
statements. -/

namespace Sys2Proof.Proofs.DatapathB

open Sys2Proof Sys2Proof.Machine Sys2Proof.Proofs.RegisterAccess Sys2Proof.Proofs.DatapathA

section
variable {s : State}

/-- A byte that is missing is found before any use of the bytes (R31). -/
theorem rxWritten_eq_false {n : Nat} (hn : ∃ j, j < n ∧ s.rx j = none) : s.rxWritten n = false := by
  obtain ⟨j, hj, hnone⟩ := hn
  exact Bool.eq_false_iff.2 fun hw => rxWritten_iff.1 hw j hj hnone

theorem rxWritten_of_bytes {n : Nat} {b : Nat → Byte} (hb : ∀ j, j < n → s.rx j = some (b j)) : s.rxWritten n = true :=
  rxWritten_iff.2 fun j hj => by simp [hb j hj]

/-! ### LDCAL_B (R200 to R202) -/

/-- The state after LDCAL_B has loaded the coefficients. -/
def loadedB (s : State) : State :=
  { s with
    cal := s.calFromBytesB, calOk := sentinelOkB s.build.sentinelB (s.coefficient s.build.bCalOrder 0)
    drvState := .calLoaded, fineValid := false }

theorem stepLdcalB_reload (hd : s.drvState ≠ .uninit) : stepLdcalB s = .error .calReload := if_pos hd

theorem stepLdcalB_unwritten (hd : s.drvState = .uninit) (hn : ∃ j, j < 24 ∧ s.rx j = none) :
    stepLdcalB s = .error .unwrittenOperand := by
  simp [stepLdcalB, hd, rxWritten_eq_false hn]

theorem loadedB_getElem (k : Fin 12) : (loadedB s).cal[k] = s.coefficient s.build.bCalOrder k.val :=
  Vector.getElem_ofFn k.isLt

/-- CAL_OK is the test of the first coefficient loaded, unless the build has no sentinel (R202). -/
theorem loadedB_calOk : (loadedB s).calOk = true ↔
    s.build.sentinelB = .none ∨ ((loadedB s).cal[0] ≠ 0x0000 ∧ (loadedB s).cal[0] ≠ 0xFFFF) := by
  have h0 : (loadedB s).cal[0] = s.coefficient s.build.bCalOrder 0 := loadedB_getElem 0
  rw [h0, loadedB]
  cases s.build.sentinelB <;> simp [sentinelOkB, sentinelOk]

section
variable {b : Nat → Byte} (hb : ∀ j, j < 24 → s.rx j = some (b j))
include hb

theorem stepLdcalB_written (hd : s.drvState = .uninit) : stepLdcalB s = .ok (loadedB s) := by
  simp [stepLdcalB, loadedB, hd, rxWritten_of_bytes hb]

/-- The coefficients in the build's order of bytes (R200). -/
theorem loadedB_cal (k : Fin 12) : (loadedB s).cal[k] = match s.build.bCalOrder with
    | .big => BitVec.ofNat 16 ((b (2 * k.val)).toNat * 256 + (b (2 * k.val + 1)).toNat)
    | .little => BitVec.ofNat 16 ((b (2 * k.val + 1)).toNat * 256 + (b (2 * k.val)).toNat) := by
  have hfirst := rxByte_eq (hb (2 * k.val) (by omega))
  have hsecond := rxByte_eq (hb (2 * k.val + 1) (by omega))
  rw [loadedB_getElem]
  cases s.build.bCalOrder <;> simp only [State.coefficient, hfirst, hsecond, bePair_eq]

end

/-! ### UNPACK_B (R203) -/

/-- The number of a 20-bit sample: the third byte's low nibble is dropped. -/
def sample20 (b0 b1 b2 : Byte) : Nat := b0.toNat * 2 ^ 12 + b1.toNat * 2 ^ 4 + b2.toNat / 2 ^ 4

theorem sample20_lt (b0 b1 b2 : Byte) : sample20 b0 b1 b2 < 2 ^ 20 := by
  rw [sample20]
  omega

theorem toNat_sample20 (b0 b1 b2 : Byte) : (BitVec.ofNat 32 (sample20 b0 b1 b2)).toNat = sample20 b0 b1 b2 := by
  have hlt := sample20_lt b0 b1 b2
  rw [BitVec.toNat_ofNat, Nat.mod_eq_of_lt (by omega)]

/-- A raw sample is no negative s32 operand (R204). -/
theorem toInt_sample20 (b0 b1 b2 : Byte) : (BitVec.ofNat 32 (sample20 b0 b1 b2)).toInt = sample20 b0 b1 b2 := by
  have hlt := sample20_lt b0 b1 b2
  rw [BitVec.toInt_eq_toNat_of_lt, toNat_sample20]
  rw [toNat_sample20]
  omega

theorem pack20_eq (b0 b1 b2 : Byte) : pack20 b0 b1 b2 = BitVec.ofNat 32 (sample20 b0 b1 b2) := by
  have hbits : pack20 b0 b1 b2 = (b0 ++ b1 ++ b2.extractLsb' 4 4).setWidth 32 := by
    ext k hk
    grind [pack20]
  have hlow : (b2.extractLsb' 4 4).toNat = b2.toNat / 2 ^ 4 := by
    rw [BitVec.extractLsb'_toNat, Nat.shiftRight_eq_div_pow]
    omega
  rw [hbits, ← BitVec.ofNat_toNat, toNat_append_add, toNat_append_add, hlow, sample20]
  congr 1
  ring

/-- The state after UNPACK_B with the bytes `b` in RXBUF. -/
def unpackedB (b : Nat → Byte) (s : State) : State :=
  { s with
    rawP := some (BitVec.ofNat 32 (sample20 (b 0) (b 1) (b 2)))
    rawT := some (BitVec.ofNat 32 (sample20 (b 3) (b 4) (b 5))) }

theorem stepUnpackB_written {b : Nat → Byte} (hb : ∀ j, j < 6 → s.rx j = some (b j)) :
    stepUnpackB s = .ok (unpackedB b s) := by
  have hbyte : ∀ j, j < 6 → s.rxByte j = b j := fun j hj => rxByte_eq (hb j hj)
  simp [stepUnpackB, unpackedB, rxWritten_of_bytes hb, hbyte, pack20_eq]

theorem stepUnpackB_unwritten (hn : ∃ j, j < 6 ∧ s.rx j = none) : stepUnpackB s = .error .unwrittenOperand := by
  simp [stepUnpackB, rxWritten_eq_false hn]

/-! ### COMP_BT (R206) -/

theorem stepCompBt_uncalibrated (hc : s.calOk = false) : stepCompBt s = .ok { s with tOut := some 0 } := by
  simp [stepCompBt, hc]

theorem stepCompBt_unwritten (hc : s.calOk = true) (hr : s.rawT = none) : stepCompBt s = .error .unwrittenOperand := by
  simp [stepCompBt, hc, hr]

/-- A written raw sample under a valid calibration gives the outcome of the formula. -/
theorem stepCompBt_calibrated {adcT : Word} {r : Except FaultCode (Int × Int)} (hc : s.calOk = true)
    (hr : s.rawT = some adcT)
    (hcalc : calcBT s.build.overflowMode adcT.toInt s.cal[0].toNat s.cal[1].toInt s.cal[2].toInt = r) :
    stepCompBt s = storeTemperature r s := by
  subst hcalc
  simp [stepCompBt, hc, hr, rawS32, State.calU, State.calS]

/-! ### COMP_BP (R207, R280) -/

theorem stepCompBp_uncalibrated (hc : s.calOk = false) :
    stepCompBp s = .ok { s with pOut := some 0, fineValid := false } := by
  simp [stepCompBp, hc]

section
variable (hc : s.calOk = true)
include hc

theorem stepCompBp_stale (hf : s.fineValid = false) : stepCompBp s = .error .staleFine := by
  simp [stepCompBp, hc, hf]

variable (hf : s.fineValid = true)
include hf

theorem stepCompBp_unwritten (hr : s.rawP = none) : stepCompBp s = .error .unwrittenOperand := by
  simp [stepCompBp, hc, hf, hr]

/-- A written raw sample and a valid fine temperature under a valid calibration give the outcome of the formula. -/
theorem stepCompBp_calibrated {adcP f : Word} {r : Except FaultCode Int} (hr : s.rawP = some adcP) (hfine : s.fine = some f)
    (hcalc : calcBP s.build.overflowMode adcP.toNat f.toInt s.cal[3].toNat s.cal[4].toInt s.cal[5].toInt s.cal[6].toInt
      s.cal[7].toInt s.cal[8].toInt s.cal[9].toInt s.cal[10].toInt s.cal[11].toInt = r) :
    stepCompBp s = storePressure r s := by
  subst hcalc
  simp [stepCompBp, hc, hf, hr, hfine, rawS64, fineInt, State.calU, State.calS]

end

end

/-! ### The statements on the datapath commands -/

/-- Settles O45: LDCAL_B's step with all bytes written, after a load, and with a byte missing. -/
theorem ldcalBRule : Obligations.LdcalBRule := by
  unfold Obligations.LdcalBRule
  intro s hs hv
  have hexec : ∀ {r}, stepLdcalB (s.accept _ _) = r → exec .ldcalB s = .next (outcome .ldcalB s r) :=
    exec_datapath (fun _ _ => rfl) (fun _ => rfl) hs (by rw [hv]; rfl)
  exact ⟨fun _ hd hb =>
      ⟨_, hexec (stepLdcalB_written hb hd), rfl, loadedB_cal (s := s.accept _ _) hb, loadedB_calOk⟩,
    fun hd => hexec (stepLdcalB_reload hd),
    fun hd hn => hexec (stepLdcalB_unwritten hd hn)⟩

/-- Settles O46: UNPACK_B's step with all bytes written, and with one missing. -/
theorem unpackBRule : Obligations.UnpackBRule := by
  unfold Obligations.UnpackBRule
  intro s hs hv
  have hexec : ∀ {r}, stepUnpackB (s.accept _ _) = r → exec .unpackB s = .next (outcome .unpackB s r) :=
    exec_datapath (fun _ _ => rfl) (fun _ => rfl) hs (by rw [hv]; rfl)
  exact ⟨fun _ hb => hexec (stepUnpackB_written hb), fun hn => hexec (stepUnpackB_unwritten hn)⟩

/-- Settles O47: COMP_BT's step on each path, in the order of R246. -/
theorem compBtRule : Obligations.CompBtRule := by
  unfold Obligations.CompBtRule
  intro s hs hv
  have hexec : ∀ {r}, stepCompBt (s.accept _ _) = r → exec .compBt s = .next (outcome .compBt s r) :=
    exec_datapath (fun _ _ => rfl) (fun _ => rfl) hs (by rw [hv]; rfl)
  exact ⟨fun hc => hexec (stepCompBt_uncalibrated hc),
    fun hc hr => hexec (stepCompBt_unwritten hc hr),
    fun _ _ _ hc hr hcalc => hexec (stepCompBt_calibrated hc hr hcalc),
    fun _ _ hc hr hcalc => hexec (stepCompBt_calibrated hc hr hcalc)⟩

/-- Settles O48: COMP_BP's step on each path, in the order of R246. -/
theorem compBpRule : Obligations.CompBpRule := by
  unfold Obligations.CompBpRule
  intro s hs hv
  have hexec : ∀ {r}, stepCompBp (s.accept _ _) = r → exec .compBp s = .next (outcome .compBp s r) :=
    exec_datapath (fun _ _ => rfl) (fun _ => rfl) hs (by rw [hv]; rfl)
  exact ⟨fun hc => hexec (stepCompBp_uncalibrated hc),
    fun hc hf => hexec (stepCompBp_stale hc hf),
    fun hc hf hr => hexec (stepCompBp_unwritten hc hf hr),
    fun _ _ _ hc hf hr hfine hcalc => hexec (stepCompBp_calibrated (s := s.accept _ _) hc hf hr hfine hcalc),
    fun _ _ _ hc hf hr hfine hcalc => hexec (stepCompBp_calibrated (s := s.accept _ _) hc hf hr hfine hcalc)⟩

end Sys2Proof.Proofs.DatapathB
end

section
/-! PROOFS. Parts of a command that are performed without a fault and without a wait (`Performs`), bus transfers and steps done
at once alike, and a command put together from its parts. -/

namespace Sys2Proof.Proofs.CommandParts

open Sys2Proof Sys2Proof.Machine Sys2Proof.Proofs.Steps Sys2Proof.Proofs.Transport Sys2Proof.Proofs.RegisterAccess
open Sys2Proof.Proofs.DriverA

/-- Within any command, the steps `ms` issue the requests `syms`, are given the answers `cs` and take the block from `s` to `t`,
inputs and handshake aside; steps done at once are among them. -/
structure Performs (ms : List MStep) (syms : List Sym) (cs : List (Bool × Byte)) (s t : State) : Prop where
  length_eq : syms.length = cs.length
  trace : t.trace = s.trace ++ eventsOf syms cs
  run_eq : ∀ (w : Word) (rest : List MStep) (more : List Input), engineTurn more = some more →
    run (ms ++ rest) (underway w (ms ++ rest) (answers cs ++ more) s) = run rest (underway w rest more t)

section
variable {ms ms' : List MStep} {syms syms' : List Sym} {cs cs' : List (Bool × Byte)} {s t u : State}

theorem performs_transfer (h : Transfer ms syms cs s t) : Performs ms syms cs s t :=
  ⟨h.length_eq, h.trace, fun w rest more _ => run_transfer h w rest more⟩

theorem performs_done {m : MStep} (htrace : t.trace = s.trace)
    (hdone : ∀ w rest more, action m (underway w rest more s) = .done (underway w rest more t)) :
    Performs [m] [] [] s t where
  length_eq := rfl
  trace := by simp [htrace, eventsOf]
  run_eq w rest _ hmore := run_underway_done hmore (hdone w (m :: rest) _)

/-- The same for a step whose action is a datapath step's (R90). -/
theorem performs_datapath {m : MStep} {step : State → Except FaultCode State} (haction : ∀ u, action m u = internal (step u))
    (htrace : t.trace = s.trace) (hstep : ∀ w rest more, step (underway w rest more s) = .ok (underway w rest more t)) :
    Performs [m] [] [] s t :=
  performs_done htrace fun w rest more => by rw [haction, hstep, internal]

theorem Performs.append (h : Performs ms syms cs s t) (h' : Performs ms' syms' cs' t u) :
    Performs (ms ++ ms') (syms ++ syms') (cs ++ cs') s u where
  length_eq := by simp [h.length_eq, h'.length_eq]
  trace := by simp only [h'.trace, h.trace, eventsOf, List.zipWith_append h.length_eq, List.append_assoc]
  run_eq w rest more hmore := by
    have hsplit : answers (cs ++ cs') ++ more = answers cs ++ (answers cs' ++ more) := by simp [answers]
    rw [List.append_assoc, hsplit, h.run_eq w _ _ (engineTurn_answers cs' hmore), h'.run_eq w rest more hmore]

/-- Steps that issue no request add no event. -/
theorem Performs.andThen (h : Performs ms syms cs s t) (h' : Performs ms' [] [] t u) : Performs (ms ++ ms') syms cs s u := by
  simpa only [List.append_nil] using h.append h'

section
variable {i : Instr} {more : List Input} (hs : s.Ready) (ha : i.admitted s.build.variant = true) (ht : s.tstate = .idle)
  (h : Performs ms syms cs s t) (hin : s.inputs = answers cs ++ more) (hmore : engineTurn more = some more)
include hs ha ht h hin hmore

/-- A command that requires IDLE and performs all its other steps is over. -/
theorem exec_performs (hsteps : stepsOf s.build s.calOk i = .requireIdle :: ms) :
    exec i s = .next (underway (encode i) [] more t) := by
  have hrun := h.run_eq (encode i) [] more hmore
  rw [List.append_nil] at hrun
  rw [exec_idle hs ha hsteps ht, hin, hrun, run]

/-- A command that requires IDLE and performs its steps up to a datapath step that faults (R244). -/
theorem exec_performs_fault {m : MStep} {rest : List MStep} {step : State → Except FaultCode State} {c : FaultCode}
    (hsteps : stepsOf s.build s.calOk i = .requireIdle :: (ms ++ m :: rest)) (haction : ∀ u, action m u = internal (step u))
    (hstep : ∀ w rest more, step (underway w rest more t) = .error c) :
    exec i s = .next (faultState c (encode i) (t.withInputs more)) := by
  rw [exec_idle hs ha hsteps ht, hin, h.run_eq _ _ _ hmore]
  exact congrArg Host.Outcome.next (run_fail (s := underway _ _ _ t) hmore (by rw [haction, hstep, internal]))

end

end

end Sys2Proof.Proofs.CommandParts
end

section
/-! PROOFS. The variant-B driver commands INIT_B and SAMPLE_B (R210, R211): the parts of each command and the commands'
statements. -/

namespace Sys2Proof.Proofs.DriverB

open Sys2Proof Sys2Proof.Machine Sys2Proof.Proofs.Steps Sys2Proof.Proofs.Transport Sys2Proof.Proofs.RegisterAccess
open Sys2Proof.Proofs.DatapathA Sys2Proof.Proofs.DriverA Sys2Proof.Proofs.DatapathB Sys2Proof.Proofs.CommandParts

/-! ### SAMPLE_B (R211) -/

/-- The block after an answered burst of 6. -/
def burstRead (a : Addr7) (cs : Nat → Bool × Byte) (s : State) : State :=
  afterRead a .read 0 5 (fun j => cs (5 + j)) (eventsOf (symsRead a 0xF7 5) ((List.range 12).map cs)) s

/-- The block after the burst and UNPACK_B. -/
def measuredB (a : Addr7) (cs : Nat → Bool × Byte) (s : State) : State :=
  unpackedB (fun j => (cs (5 + j)).2) (burstRead a cs s)

/-- The block after COMP_BT's results were stored in it (R206). -/
def tempStored (f t : Int) (s : State) : State :=
  { s with fine := some (toReg f), tOut := some (toReg t), fineValid := true }

/-- The block after COMP_BP's result was stored in it (R207). -/
def pressStored (p : Int) (s : State) : State := { s with pOut := some (toReg p), fineValid := false }

section
variable (a : Addr7) (cs : Nat → Bool × Byte) (s : State)

theorem rx_burstRead (j : Nat) : (burstRead a cs s).rx j = if j < 6 then some (cs (5 + j)).2 else s.rx j := by
  rw [burstRead, rx_afterRead (by decide), Nat.sub_zero]
  exact if_congr (by omega) rfl rfl

theorem performs_measureB (ht : s.tstate = .idle) :
    Performs (seqBurst a regDataB 6 ++ [MStep.unpackB]) (symsRead a 0xF7 5) ((List.range 12).map cs) s (measuredB a cs s) := by
  have hbytes : ∀ j, j < 6 → (burstRead a cs s).rx j = some (cs (5 + j)).2 := fun j hj =>
    (rx_burstRead a cs s j).trans (if_pos hj)
  have hburst : Performs (seqBurst a regDataB 6) (symsRead a 0xF7 5) ((List.range 12).map cs) s (burstRead a cs s) :=
    performs_transfer (transfer_read a regDataB cs 0 5 ht)
  have hunpack : Performs [.unpackB] [] [] (burstRead a cs s) (measuredB a cs s) :=
    performs_datapath (step := stepUnpackB) (fun _ => rfl) rfl fun w rest more =>
      stepUnpackB_written (s := underway w rest more (burstRead a cs s)) (b := fun j => (cs (5 + j)).2) hbytes
  exact hburst.andThen hunpack

end

theorem faultState_of_idle {c : FaultCode} {w : Word} {s : State} (ht : s.tstate = .idle) :
    faultState c w s = { faultState c w s with tstate := .idle } := by
  rw [← ht]
  rfl

section
variable {a : Addr7} {cs : Nat → Bool × Byte} {s : State} (hc : s.calOk = true) (w : Word) (rest : List MStep)
  (more : List Input)
include hc

/-- The temperature's formula within SAMPLE_B. -/
theorem stepCompBt_measured {r : Except FaultCode (Int × Int)}
    (hcalc : calcBT s.build.overflowMode (sample20 (cs 8).2 (cs 9).2 (cs 10).2) s.cal[0].toNat s.cal[1].toInt s.cal[2].toInt
      = r) :
    stepCompBt (underway w rest more (measuredB a cs s)) = storeTemperature r (underway w rest more (measuredB a cs s)) := by
  rw [← toInt_sample20] at hcalc
  exact stepCompBt_calibrated (s := underway w rest more (measuredB a cs s)) hc rfl hcalc

/-- The pressure's formula within SAMPLE_B. -/
theorem stepCompBp_measured {f t : Int} {r : Except FaultCode Int}
    (hcalc : calcBP s.build.overflowMode (sample20 (cs 5).2 (cs 6).2 (cs 7).2) (BitVec.ofInt 32 f).toInt s.cal[3].toNat
      s.cal[4].toInt s.cal[5].toInt s.cal[6].toInt s.cal[7].toInt s.cal[8].toInt s.cal[9].toInt s.cal[10].toInt
      s.cal[11].toInt = r) :
    stepCompBp (underway w rest more (tempStored f t (measuredB a cs s))) =
      storePressure r (underway w rest more (tempStored f t (measuredB a cs s))) := by
  rw [← toNat_sample20] at hcalc
  exact stepCompBp_calibrated (s := underway w rest more (tempStored f t (measuredB a cs s))) hc rfl rfl rfl hcalc

end

theorem stepsOf_sampleB (b : Build) (calOk : Bool) (a : Addr7) :
    ∃ rest, stepsOf b calOk (.sampleB a) = .requireIdle :: rest := by
  cases calOk <;> exact ⟨_, rfl⟩

/-- Settles O53: the burst, then the two formulas, the first fault of which ends the command. -/
theorem sampleBRule : Obligations.SampleBRule := by
  unfold Obligations.SampleBRule
  intro s a cs more hs hv
  have ha : (Instr.sampleB a).admitted s.build.variant = true := by rw [hv]; rfl
  refine ⟨fun hc ht hmore hin => ?_, ?_⟩
  · have hsteps : stepsOf s.build s.calOk (.sampleB a) =
        .requireIdle :: (seqBurst a regDataB 6 ++ [MStep.unpackB] ++ [MStep.compBt, .compBp]) := congrArg (seqSampleB · a) hc
    have hmeasured := performs_measureB a cs s ht
    have htemp : ∀ f t : Int, calcBT s.build.overflowMode (sample20 (cs 8).2 (cs 9).2 (cs 10).2)
          s.cal[0].toNat s.cal[1].toInt s.cal[2].toInt = .ok (f, t) →
        Performs (seqBurst a regDataB 6 ++ [MStep.unpackB] ++ [MStep.compBt]) (symsRead a 0xF7 5) ((List.range 12).map cs) s
          (tempStored f t (measuredB a cs s)) := fun f t hcalc =>
      hmeasured.andThen (performs_datapath (step := stepCompBt) (fun _ => rfl) rfl fun w rest more =>
        stepCompBt_measured hc w rest more hcalc)
    refine ⟨fun f t p hcalcT hcalcP => ?_, fun f t c hcalcT hcalcP => ?_, fun c hcalcT => ?_⟩
    · have hpress : Performs [.compBp] [] [] (tempStored f t (measuredB a cs s))
          (pressStored p (tempStored f t (measuredB a cs s))) :=
        performs_datapath (step := stepCompBp) (fun _ => rfl) rfl fun w rest more =>
          stepCompBp_measured hc w rest more hcalcP
      refine ⟨_, exec_performs hs ha ht ((htemp f t hcalcT).andThen hpress) hin hmore hsteps, ?_, rx_burstRead a cs s⟩
      rw [ended_of_idle ht]
      rfl
    · refine ⟨_, exec_performs_fault hs ha ht (htemp f t hcalcT) hin hmore hsteps (fun _ => rfl) fun w rest more =>
        stepCompBp_measured hc w rest more hcalcP, ?_, rx_burstRead a cs s⟩
      rw [faultState_of_idle ht]
      rfl
    · refine ⟨_, exec_performs_fault hs ha ht hmeasured hin hmore hsteps (fun _ => rfl) fun w rest more =>
        stepCompBt_measured hc w rest more hcalcT, ?_, rx_burstRead a cs s⟩
      rw [faultState_of_idle ht]
      rfl
  · obtain ⟨rest, hsteps⟩ := stepsOf_sampleB s.build s.calOk a
    exact exec_not_idle hs ha hsteps

/-! ### INIT_B (R210) -/

/-- The requests of the configuration writes, in the build's order. -/
def symsConfigB (b : Build) (a : Addr7) : List Sym :=
  match b.bCfgOrder with
  | .f4First => symsWrite a 0xF4 b.cfgF4 ++ symsWrite a 0xF5 b.cfgF5
  | .f5First => symsWrite a 0xF5 b.cfgF5 ++ symsWrite a 0xF4 b.cfgF4

/-- The requests of n coefficient reads from number k on. -/
def symsCalReadsB (a : Addr7) (k n : Nat) : List Sym :=
  ((List.range' k n).map fun k => symsRead a (BitVec.ofNat 8 (0x88 + 2 * k)) 1).flatten

theorem symsInitB_eq (b : Build) (a : Addr7) :
    symsInitB b a = [Sym.delay b.tPwronB] ++ symsConfigB b a ++ symsCalReadsB a 0 12 := by
  cases h : b.bCfgOrder <;> simp only [symsInitB, symsConfigB, symsCalReadsB, h, List.range_eq_range']

section
variable {s : State} (ht : s.tstate = .idle)
include ht

/-- Two writes, in either order. -/
theorem transfer_configB (b : Build) (a : Addr7) (cs : Nat → Bool × Byte) :
    Transfer (seqConfigB b a) (symsConfigB b a) ((List.range 10).map cs) s
      (afterWrite a (eventsOf (symsConfigB b a) ((List.range 10).map cs)) s) := by
  have htwo : ∀ r v r' v', Transfer (seqWr1 a r v ++ seqWr1 a r' v') (symsWrite a r v ++ symsWrite a r' v')
      ((List.range 10).map cs) s
      (afterWrite a (eventsOf (symsWrite a r v ++ symsWrite a r' v') ((List.range 10).map cs)) s) := fun r v r' v' =>
    ((transfer_write a r cs v ht).append (transfer_write a r' (fun j => cs (5 + j)) v' rfl)).of_eq rfl
  unfold seqConfigB symsConfigB
  cases b.bCfgOrder
  case f4First => exact htwo regCtrl b.cfgF4 regConfigB b.cfgF5
  case f5First => exact htwo regConfigB b.cfgF5 regCtrl b.cfgF4

end

/-- Coefficient k's two bytes as a burst into RXBUF[2k] and RXBUF[2k + 1], answered. -/
def pairRead (a : Addr7) (k : Nat) (cs : Nat → Bool × Byte) (s : State) : State :=
  afterRead a .read (2 * k) 1 (fun j => cs (5 + j))
    (eventsOf (symsRead a (BitVec.ofNat 8 (0x88 + 2 * k)) 1) ((List.range 8).map cs)) s

/-- The block after the answered RD2 of coefficient k. -/
def coefficientRead (a : Addr7) (k : Nat) (cs : Nat → Bool × Byte) (s : State) : State :=
  { pairRead a k cs s with rx16 := some (BitVec.ofNat 16 ((cs 5).2.toNat * 256 + (cs 6).2.toNat)) }

section
variable (a : Addr7) {k : Nat} (hk : k < 16) (cs : Nat → Bool × Byte) (s : State)
include hk

theorem rx_pairRead (j : Nat) :
    (pairRead a k cs s).rx j = if 2 * k ≤ j ∧ j ≤ 2 * k + 1 then some (cs (5 + (j - 2 * k))).2 else s.rx j :=
  rx_afterRead (by omega) j

/-- RD2 within a command: its two bytes, then RX16 (R132, R210). -/
theorem performs_coefficientRead (ht : s.tstate = .idle) :
    Performs (seqRd2 a (regCalB + BitVec.ofNat 8 (2 * k)) (2 * k)) (symsRead a (BitVec.ofNat 8 (0x88 + 2 * k)) 1)
      ((List.range 8).map cs) s (coefficientRead a k cs s) := by
  have hh := (rx_pairRead a hk cs s (2 * k)).trans (if_pos (by omega))
  have hl := (rx_pairRead a hk cs s (2 * k + 1)).trans (if_pos (by omega))
  rw [Nat.sub_self] at hh
  rw [Nat.add_sub_cancel_left] at hl
  have hread : Performs (seqReadFrom a (BitVec.ofNat 8 (0x88 + 2 * k)) ++ seqBytes (2 * k) 1) _ _ s (pairRead a k cs s) :=
    performs_transfer (transfer_read a _ cs (2 * k) 1 ht)
  have hlatch : Performs [.latchRx16 (2 * k)] [] [] (pairRead a k cs s) (coefficientRead a k cs s) :=
    performs_datapath (step := stepLatchRx16 (2 * k)) (fun _ => rfl) rfl fun w rest more => by
      rw [stepLatchRx16_written (s := underway w rest more (pairRead a k cs s)) hh hl, bePair_eq]
      rfl
  rw [show regCalB + BitVec.ofNat 8 (2 * k) = BitVec.ofNat 8 (0x88 + 2 * k) from (BitVec.ofNat_add _ _).symm]
  exact hread.andThen hlatch

end

/-- Which answer to consecutive RD2 brings their byte j: the sixth and the seventh of each eight. -/
def byteAnswer (j : Nat) : Nat := 5 + 8 * (j / 2) + j % 2

theorem byteAnswer_first {j : Nat} (hj : j < 2) : byteAnswer j = 5 + j := by
  rw [byteAnswer]
  omega

theorem byteAnswer_later {i j : Nat} (hj : j = i + 2) : byteAnswer j = 8 + byteAnswer i := by
  rw [byteAnswer, byteAnswer]
  omega

/-- n + 1 coefficient reads from number k on leave their bytes in RXBUF, and the last of them RX16 and RXDATA (R210). -/
theorem performs_calReadsB (a : Addr7) (n : Nat) : ∀ (k : Nat) (cs : Nat → Bool × Byte) {s : State}, s.tstate = .idle →
    k + n < 16 →
    ∃ t, Performs (seqCalReadsB a k (n + 1)) (symsCalReadsB a k (n + 1)) ((List.range (8 * (n + 1))).map cs) s t ∧
      t = { s with
        pend := none, tstate := .idle, curAddr := a, curDir := .read
        rx16 := some (BitVec.ofNat 16 ((cs (8 * n + 5)).2.toNat * 256 + (cs (8 * n + 6)).2.toNat))
        rxdata := some (cs (8 * n + 6)).2, rxbuf := t.rxbuf, trace := t.trace } ∧
      ∀ j, t.rx j = if 2 * k ≤ j ∧ j < 2 * (k + n + 1) then some (cs (byteAnswer (j - 2 * k))).2 else s.rx j := by
  induction n with
  | zero =>
    intro k cs s ht hk
    refine ⟨coefficientRead a k cs s, ?_, rfl, fun j => ?_⟩
    · simpa [seqCalReadsB, symsCalReadsB] using performs_coefficientRead a hk cs s ht
    · refine (rx_pairRead (k := k) a hk cs s j).trans (if_ctx_congr (by omega) (fun hj => ?_) fun _ => rfl)
      rw [byteAnswer_first (by omega)]
  | succ n ih =>
    intro k cs s ht hk
    have hk' : k < 16 := by omega
    obtain ⟨t, hrest, heq, hrx⟩ := ih (k + 1) (fun j => cs (8 + j)) (s := coefficientRead a k cs s) rfl (by omega)
    refine ⟨t, ?_, ?_, fun j => ?_⟩
    · rw [seqCalReadsB, show 8 * (n + 1 + 1) = 8 + 8 * (n + 1) by omega, List.range_add, List.map_append, List.map_map]
      exact (performs_coefficientRead a hk' cs s ht).append hrest
    · rw [show 8 * (n + 1) + 5 = 8 + (8 * n + 5) by omega, show 8 * (n + 1) + 6 = 8 + (8 * n + 6) by omega]
      exact heq
    · have hfirst : (coefficientRead a k cs s).rx j = _ := rx_pairRead a hk' cs s j
      rw [hrx j, hfirst]
      obtain hj | hj | hj : (2 * k ≤ j ∧ j ≤ 2 * k + 1) ∨ (2 * (k + 1) ≤ j ∧ j < 2 * (k + 1 + n + 1)) ∨
        (j < 2 * k ∨ 2 * (k + 1 + n + 1) ≤ j) := by omega
      · rw [if_neg (by omega), if_pos hj, if_pos (by omega), byteAnswer_first (by omega)]
      · rw [if_pos hj, if_pos (by omega), byteAnswer_later (j := j - 2 * k) (i := j - 2 * (k + 1)) (by omega)]
      · rw [if_neg (by omega), if_neg (by omega), if_neg (by omega)]

/-- The transfers and RX16 writes of INIT_B: the delay, the configuration writes, the coefficient reads. -/
def initReadsB (b : Build) (a : Addr7) : List MStep :=
  [MStep.delay b.tPwronB] ++ seqConfigB b a ++ seqCalReadsB a 0 12

theorem stepsOf_initB (b : Build) (calOk : Bool) (a : Addr7) : stepsOf b calOk (.initB a) =
    .requireIdle :: ([MStep.requireUninit] ++ initReadsB b a ++ [MStep.ldcalB] ++ [MStep.setReady]) := by
  simp [stepsOf, seqInitB, initReadsB]

/-- What the answered transfers of INIT_B leave: the coefficients' bytes in RXBUF[0..23]. -/
theorem performs_initReadsB {s : State} (ht : s.tstate = .idle) (a : Addr7) (cs : Nat → Bool × Byte) :
    ∃ t, Performs (initReadsB s.build a) (symsInitB s.build a) ((List.range 107).map cs) s t ∧
      t = { s with
        pend := none, tstate := .idle, curAddr := a, curDir := .read
        rx16 := some (BitVec.ofNat 16 ((cs 104).2.toNat * 256 + (cs 105).2.toNat))
        rxdata := some (cs 105).2, rxbuf := t.rxbuf, trace := t.trace } ∧
      ∀ j, t.rx j = if j < 24 then some (cs (16 + 8 * (j / 2) + j % 2)).2 else s.rx j := by
  have hdelay := performs_transfer (transfer_delay s.build.tPwronB (cs 0) s)
  have hconfig := performs_transfer
    (transfer_configB (s := s.record (.delay s.build.tPwronB)) ht s.build a (fun j => cs (1 + j)))
  obtain ⟨t, hreads, heq, hrx⟩ := performs_calReadsB a 11 0 (fun j => cs (11 + j)) (s := afterWrite a _ (s.record _)) rfl
    (by omega)
  refine ⟨t, ?_, heq, fun j => ?_⟩
  · rw [symsInitB_eq]
    exact (hdelay.append hconfig).append hreads
  · have hanswer : 11 + byteAnswer (j - 2 * 0) = 16 + 8 * (j / 2) + j % 2 := by
      rw [byteAnswer]
      omega
    rw [← hanswer]
    exact (hrx j).trans (if_congr (by omega) rfl rfl)

/-- INIT_B whose transfers are answered and lead to `t` loads the bytes they left and is READY. -/
theorem performs_initB {s t : State} {a : Addr7} {b : Nat → Byte} {syms : List Sym} {cs : List (Bool × Byte)}
    (hd : s.drvState = .uninit) (hreads : Performs (initReadsB s.build a) syms cs s t)
    (hbytes : ∀ j, j < 24 → t.rx j = some (b j)) (hdt : t.drvState = .uninit) :
    Performs ([MStep.requireUninit] ++ initReadsB s.build a ++ [MStep.ldcalB] ++ [MStep.setReady]) syms cs s
      { loadedB t with drvState := .ready } := by
  have hcheck : Performs [.requireUninit] [] [] s s := performs_done rfl fun _ _ _ => action_requireUninit hd
  have hload : Performs [.ldcalB] [] [] t (loadedB t) :=
    performs_datapath (step := stepLdcalB) (fun _ => rfl) rfl fun w rest more =>
      stepLdcalB_written (s := underway w rest more t) hbytes hdt
  have hready : Performs [.setReady] [] [] (loadedB t) { loadedB t with drvState := .ready } :=
    performs_done rfl fun _ _ _ => rfl
  exact ((hcheck.append hreads).andThen hload).andThen hready

/-- Settles O52: the transfers, then the load of their bytes; a check that fails comes before them. -/
theorem initBRule : Obligations.InitBRule := by
  unfold Obligations.InitBRule
  intro s a cs more hs hv
  have ha : (Instr.initB a).admitted s.build.variant = true := by rw [hv]; rfl
  have hsteps := stepsOf_initB s.build s.calOk a
  refine ⟨fun ht hmore hd hin => ?_, exec_not_idle hs ha hsteps, fun ht hd => ?_⟩
  · obtain ⟨t, hreads, heq, hrx⟩ := performs_initReadsB ht a cs
    have hbytes : ∀ j, j < 24 → t.rx j = some (cs (16 + 8 * (j / 2) + j % 2)).2 := fun j hj => (hrx j).trans (if_pos hj)
    have hdt : t.drvState = .uninit := by rw [heq]; exact hd
    have hbuild : t.build = s.build := by rw [heq]
    have hframe : ∀ (cal : Vector Half 12) (calOk : Bool), underway (encode (.initB a)) [] more
          { t with cal := cal, calOk := calOk, drvState := .ready, fineValid := false } =
        { s.ended with
          inputs := more, pend := none, drvState := .ready, fineValid := false, curAddr := a, curDir := .read
          rx16 := some (BitVec.ofNat 16 ((cs 104).2.toNat * 256 + (cs 105).2.toNat))
          rxdata := some (cs 105).2, rxbuf := t.rxbuf, cal := cal, calOk := calOk
          trace := s.trace ++ eventsOf (symsInitB s.build a) ((List.range 107).map cs) } := fun _ _ => by
      rw [← hreads.trace, heq, ended_of_idle ht]
      rfl
    refine ⟨_, exec_performs hs ha ht (performs_initB hd hreads hbytes hdt) hin hmore hsteps, hframe _ _, hrx,
      fun k => ?_, ?_⟩
    · have hhigh : 16 + 8 * (2 * k.val / 2) + 2 * k.val % 2 = 16 + 8 * k.val := by omega
      have hlow : 16 + 8 * ((2 * k.val + 1) / 2) + (2 * k.val + 1) % 2 = 17 + 8 * k.val := by omega
      rw [← hbuild, ← hhigh, ← hlow]
      exact loadedB_cal hbytes k
    · rw [← hbuild]
      exact loadedB_calOk
  · have ⟨_, _, hturn⟩ := hs
    rw [exec_idle hs ha hsteps ht]
    exact congrArg Host.Outcome.next (run_fail (s := underway _ _ _ s) hturn (if_neg hd))

end Sys2Proof.Proofs.DriverB
end

section
/-! PROOFS. Exceptions at the host's port (R241, R242, R247): a CMD write while BUSY = 1, an access outside the register map,
and what the fault state makes of every input but reset. -/

namespace Sys2Proof.Proofs.Exceptions

open Sys2Proof Sys2Proof.Machine Sys2Proof.Proofs.Steps Sys2Proof.Proofs.Step Sys2Proof.Proofs.Invariant
open Sys2Proof.Proofs.HostView Sys2Proof.Proofs.Encoding

/-! ### A CMD write while BUSY = 1 (R242) -/

section
variable {s : State} (hf : s.faulted = false) (hb : s.busy = true)
include hf hb

/-- The word of a command, written to a busy block. -/
theorem command_busy (i : Instr) (seq : List MStep) : command i seq s = faultState .cmdWhileBusy (encode i) s := by
  simp only [command, hf, hb]
  rfl

/-- A word that is no command, written to a busy block. -/
theorem illegalWord_busy (w : Word) : illegalWord w s = faultState .cmdWhileBusy w s := by
  simp only [illegalWord, hf, hb]
  rfl

theorem writeCmd_busy (w : Word) : writeCmd w s = .next (faultState .cmdWhileBusy w s) := by
  rw [writeCmd]
  cases hdec : decode w with
  | error e => exact congrArg Host.Outcome.next (illegalWord_busy hf hb w)
  | ok i =>
    obtain ⟨rfl, -⟩ := decode_eq_ok_iff.1 hdec
    exact (exec_eq_command i s).trans (congrArg _ (command_busy hf hb i _))

end

/-- Settles O14: whether the word decodes or not, BUSY is looked at before what the word says. -/
theorem writeWhileBusyFaults : Obligations.WriteWhileBusyFaults := by
  unfold Obligations.WriteWhileBusyFaults
  intro s w more hi hf hb
  rw [step_write_cmd hi]
  exact writeCmd_busy (s := s.withInputs more) hf hb w

/-! ### The register map (R22) -/

theorem mappedOffset_iff {o : Word} : mappedOffset o = true ↔ o.toNat % 4 = 0 ∧
    (o.toNat ≤ 0x28 ∨ (0x100 ≤ o.toNat ∧ o.toNat < 0x180) ∨ (0x200 ≤ o.toNat ∧ o.toNat ≤ 0x22C)) := by
  simp [mappedOffset, or_assoc]

theorem hostReg?_eq_none_iff {o : Word} : hostReg? o = none ↔ ¬ mappedOffset o = true := by
  rw [mappedOffset_iff]
  unfold hostReg?
  split
  case h_12 =>
    simp only [Config.nmax, imp_false] at *
    split_ifs with hmisaligned
    · exact iff_of_true rfl fun ⟨haligned, _⟩ => hmisaligned haligned
    · exact iff_of_false nofun (not_not_intro (by omega))
    · exact iff_of_false nofun (not_not_intro (by omega))
    · exact iff_of_true rfl (by omega)
  all_goals
    next ho => simp [ho]

theorem hostReg?_eq_cmd_iff {o : Word} : hostReg? o = some .cmd ↔ o = 0 := by
  rw [← BitVec.toNat_inj]
  unfold hostReg?
  split
  case h_12 =>
    split_ifs <;> simp <;> omega
  all_goals
    next ho => simp [ho]

/-! ### Illegal accesses (R241) -/

/-- FAULT_CMD of an illegal access as a number (R240, D3). -/
theorem illegalAccessWord_eq (o : Word) : illegalAccessWord o = BitVec.ofNat 32 (2 ^ 31 + o.toNat % 2 ^ 31) := by
  apply BitVec.eq_of_toNat_eq
  simp only [illegalAccessWord, toNat_append_add, BitVec.extractLsb'_toNat, BitVec.ofNat_eq_ofNat, BitVec.toNat_ofNat,
    Nat.shiftRight_zero]
  omega

/-- An access outside the map is an IllegalAccess; a read returns some value besides (R241, log 14). -/
theorem hostAccess_illegal {a : HostAccess} (ha : illegalHostAccess a = true) (s : State) :
    hostAccess a s = .next (illegalAccess a.offset s) ∨
      hostAccess a s = .next ((illegalAccess a.offset s).returnAny 0xFFFFFFFF) := by
  cases a with
  | write o bytes data =>
    have hne : ¬ (bytes = 4 ∧ hostReg? o = some .cmd) := by
      rw [hostReg?_eq_cmd_iff]
      simpa [illegalHostAccess, imp_iff_not_or] using ha
    exact .inl (if_neg hne)
  | read o bytes =>
    have hreg : (if bytes = 4 then hostReg? o else none) = none ∨
        (if bytes = 4 then hostReg? o else none) = some .cmd := by
      split_ifs with h4
      · rw [hostReg?_eq_none_iff, hostReg?_eq_cmd_iff]
        simpa [illegalHostAccess, h4] using ha
      · exact .inl rfl
    refine .inr ?_
    rcases hreg with h | h <;> simp only [hostAccess, h] <;> rfl

/-- An access the map admits is a write of CMD or a read of another register (R22). -/
theorem hostAccess_legal {a : HostAccess} (ha : illegalHostAccess a = false) (s : State) :
    (∃ w, hostAccess a s = writeCmd w s) ∨ ∃ r, hostAccess a s = .next (resume (readReg r s)) := by
  cases a with
  | write o bytes data =>
    obtain ⟨h4, ho⟩ : bytes = 4 ∧ o = 0 := by simpa [illegalHostAccess] using ha
    exact .inl ⟨data, if_pos ⟨h4, hostReg?_eq_cmd_iff.2 ho⟩⟩
  | read o bytes =>
    obtain ⟨⟨rfl, hmapped⟩, hne⟩ : (bytes = 4 ∧ mappedOffset o = true) ∧ o ≠ 0 := by
      simpa [illegalHostAccess] using ha
    cases hreg : hostReg? o with
    | none => simp [hostReg?_eq_none_iff, hmapped] at hreg
    | some r =>
      have hcmd : r ≠ .cmd := by
        rintro rfl
        exact hne (hostReg?_eq_cmd_iff.1 hreg)
      refine .inr ⟨r, ?_⟩
      cases r
      case cmd => exact absurd rfl hcmd
      all_goals simp only [hostAccess, hreg, if_true]

theorem illegalAccess_unfaulted {s : State} (hf : s.faulted = false) (o : Word) :
    illegalAccess o s = faultState .illegalAccess (BitVec.ofNat 32 (2 ^ 31 + o.toNat % 2 ^ 31)) s := by
  rw [illegalAccess, hf, illegalAccessWord_eq]
  rfl

/-- Settles O16: the access enters the fault state, whatever BUSY is, and a read draws a value besides. -/
theorem illegalAccessFaults : Obligations.IllegalAccessFaults := by
  unfold Obligations.IllegalAccessFaults
  intro s a more hi hf ha
  have hstep : step s = hostAccess a (s.withInputs more) := by simp only [step, advance, hi]
  have hfault := illegalAccess_unfaulted (s := s.withInputs more) hf a.offset
  rw [hstep]
  rcases hostAccess_illegal ha (s.withInputs more) with h | h <;> rw [h, hfault] <;> exact ⟨_, rfl, rfl⟩

/-! ### The fault state (R247) -/

/-- The block is the same: `t` differs from `s` at most in the inputs and in what the host read. -/
def SameBlock (s t : State) : Prop := t = { s with inputs := t.inputs, hostData := t.hostData, draws := t.draws }

section
variable {s : State} (hf : s.faulted = true)
include hf

theorem illegalAccess_faulted (o : Word) : illegalAccess o s = s := if_pos hf

/-- The fault state ignores every CMD write (R247). -/
theorem writeCmd_faulted (w : Word) : writeCmd w s = .next s := by
  rw [writeCmd]
  cases decode w with
  | error e => exact congrArg Host.Outcome.next (if_pos hf)
  | ok i => exact (exec_eq_command i s).trans (congrArg _ (if_pos hf))

variable (hm : s.mseq = [])
include hm

/-- A host access to a faulted block with no steps left returns at most a value. -/
theorem hostAccess_faulted (a : HostAccess) : ∃ t, hostAccess a s = .next t ∧ SameBlock s t := by
  cases ha : illegalHostAccess a with
  | true =>
    rcases hostAccess_illegal ha s with h | h <;> rw [h, illegalAccess_faulted hf] <;> exact ⟨_, rfl, rfl⟩
  | false =>
    obtain ⟨w, h⟩ | ⟨r, h⟩ := hostAccess_legal ha s <;> rw [h]
    · exact ⟨s, writeCmd_faulted hf w, rfl⟩
    · refine ⟨readReg r s, by rw [resume_idle ((readReg_mseq r s).trans hm)], ?_⟩
      exact readReg_keeps (P := SameBlock s) (fun v u hu => by rw [hu]; rfl) (fun mask u hu => by rw [hu]; rfl) r rfl

end

/-- Settles O15: in the fault state there are no steps left and no request is outstanding, so every input but reset is
discarded, ignored or answered with a value. -/
theorem faultStateIsSticky : Obligations.FaultStateIsSticky := by
  unfold Obligations.FaultStateIsSticky
  intro s t hinv hf hreset hstep
  have hb : s.busy = false := Bool.eq_false_iff.2 fun hb => by simp [(hinv.busyClear hb).2] at hf
  obtain ⟨hm, hp⟩ := idle_of_inv hinv hb
  have hmove : s.canMove = false := by simp [State.canMove, hb]
  suffices h : ∃ u, step s = .next u ∧ SameBlock s u by
    obtain ⟨u, hu, hsame⟩ := h
    obtain rfl := Host.Outcome.next.inj (hu.symm.trans hstep)
    exact hsame
  simp only [step, advance]
  split
  case h_1 => exact ⟨s, congrArg Host.Outcome.next (resume_idle hm), rfl⟩
  case h_2 n more _ =>
    have hhold : takeHold n more s = s.withInputs more := by simp [takeHold, hmove]
    exact ⟨_, congrArg Host.Outcome.next hhold, rfl⟩
  case h_3 more hi => exact absurd hi (hreset more)
  case h_4 ack d more _ =>
    have hdiscard : takeCompletion ack d (s.withInputs more) = s.withInputs more := by simp [takeCompletion, hp]
    rw [hmove, hdiscard]
    exact ⟨_, rfl, rfl⟩
  case h_5 a more _ =>
    obtain ⟨u, hu, hsame⟩ := hostAccess_faulted (s := s.withInputs more) hf hm a
    exact ⟨u, hu, hsame⟩

end Sys2Proof.Proofs.Exceptions
end

section
/-! PROOFS. Faults of the formulas inside SAMPLE_A (R171, R244): the parts of the command before the fault are performed, and
what they left stays. -/

namespace Sys2Proof.Proofs.SampleFaultsA

open Sys2Proof Sys2Proof.Machine Sys2Proof.Proofs.Steps Sys2Proof.Proofs.DatapathA Sys2Proof.Proofs.DriverA
open Sys2Proof.Proofs.CommandParts Sys2Proof.Proofs.DriverB

/-! ### The parts of SAMPLE_A -/

/-- The steps of the temperature's measurement, up to its formula. -/
def seqMeasureT (a : Addr7) : List MStep := seqConvert a trigTempA Config.tConvT ++ [MStep.latchRx16 0, .packAt]

/-- The steps of the pressure's measurement, up to its formula. -/
def seqMeasureP (a : Addr7) : List MStep :=
  seqConvert a trigPressA Config.tConvP ++ MStep.latchRx16 0 :: (seqRd1 a regXlsbA 2 ++ [MStep.packAp])

theorem stepsOf_sampleA_calibrated (b : Build) (a : Addr7) : stepsOf b true (.sampleA a) =
    .requireIdle :: (seqMeasureT a ++ MStep.compAt :: (seqMeasureP a ++ [MStep.compAp])) := rfl

section
variable (a : Addr7) (cs : Nat → Bool × Byte) (s : State)

section
variable (ht : s.tstate = .idle)
include ht

theorem performs_measureT :
    Performs (seqMeasureT a) (symsConvert a trigTempA Config.tConvT) ((List.range 14).map cs) s (measuredT a cs s) where
  length_eq := rfl
  trace := rfl
  run_eq w rest _ hmore := run_measureT a cs s ht w rest hmore

theorem performs_measureP :
    Performs (seqMeasureP a) (symsConvert a trigPressA Config.tConvP ++ symsRead a 0xF8 0) ((List.range 21).map cs) s
      (measuredP a cs s) where
  length_eq := rfl
  trace := List.append_assoc _ _ _
  run_eq w rest more hmore := by
    rw [answers_range_add 14 7]
    exact run_measureP a cs s ht w rest hmore

end

section
variable {a cs s} (hc : s.calOk = true) (w : Word) (rest : List MStep) (more : List Input)
include hc

/-- The temperature's formula within SAMPLE_A. -/
theorem stepCompAt_measured {r : Except FaultCode (Int × Int)}
    (hcalc : calcAT s.build.overflowMode ((cs 11).2.toNat * 256 + (cs 12).2.toNat : Nat)
      s.cal[4].toNat s.cal[5].toNat s.cal[9].toInt s.cal[10].toInt = r) :
    stepCompAt (underway w rest more (measuredT a cs s)) = storeTemperature r (underway w rest more (measuredT a cs s)) := by
  rw [← toInt_rawSample] at hcalc
  exact stepCompAt_calibrated (s := underway w rest more (measuredT a cs s)) hc rfl hcalc

/-- The pressure's formula within SAMPLE_A. -/
theorem stepCompAp_measured {b5 : Word} {r : Except FaultCode Int} (hf : s.fineValid = true) (hb5 : s.fine = some b5)
    (hcalc : calcAP s.build.overflowMode ((cs 11).2.toNat * 256 + (cs 12).2.toNat : Nat) b5.toInt
      s.cal[0].toInt s.cal[1].toInt s.cal[2].toInt s.cal[3].toNat s.cal[6].toInt s.cal[7].toInt = r) :
    stepCompAp (underway w rest more (measuredP a cs s)) = storePressure r (underway w rest more (measuredP a cs s)) := by
  rw [← toInt_rawSample] at hcalc
  exact stepCompAp_calibrated (s := underway w rest more (measuredP a cs s)) hc hf rfl hb5 hcalc

end

theorem rx_measuredP (j : Nat) : (measuredP a cs s).rx j =
    if j = 0 then some (cs 11).2 else if j = 1 then some (cs 12).2 else if j = 2 then some (cs 19).2 else s.rx j :=
  rx_xlsbRead a cs s j

theorem rx_sampledT (b5 t : Int) (j : Nat) : (sampledT a cs b5 t s).rx j =
    if j = 0 then some (cs 11).2 else if j = 1 then some (cs 12).2 else s.rx j :=
  rx_resultRead a trigTempA Config.tConvT cs s j

/-- The block after SAMPLE_A's temperature and its pressure's measurement, before the pressure's formula. -/
def measuredA (b5 t : Int) : State := measuredP a (fun j => cs (14 + j)) (sampledT a cs b5 t s)

theorem rx_measuredA (b5 t : Int) (j : Nat) : (measuredA a cs s b5 t).rx j =
    if j = 0 then some (cs 25).2 else if j = 1 then some (cs 26).2 else if j = 2 then some (cs 33).2 else s.rx j := by
  rw [measuredA, rx_measuredP, rx_sampledT]
  split_ifs <;> rfl

/-- What the pressure's measurement leaves, RXBUF and TRACE aside. -/
theorem measuredP_eq : measuredP a cs s =
    { s with
      pend := none, tstate := .idle, curAddr := a, curDir := .read
      rawP := some (BitVec.ofNat 32 ((cs 11).2.toNat * 256 + (cs 12).2.toNat))
      rx16 := some (BitVec.ofNat 16 ((cs 11).2.toNat * 256 + (cs 12).2.toNat))
      rxdata := some (cs 19).2, rxbuf := (measuredP a cs s).rxbuf, trace := (measuredP a cs s).trace } := rfl

/-- What SAMPLE_A leaves before its pressure's formula, RXBUF and TRACE aside. -/
theorem measuredA_eq (b5 t : Int) : measuredA a cs s b5 t =
    { s with
      pend := none, tstate := .idle, curAddr := a, curDir := .read, fineValid := true
      rawT := some (BitVec.ofNat 32 ((cs 11).2.toNat * 256 + (cs 12).2.toNat))
      rawP := some (BitVec.ofNat 32 ((cs 25).2.toNat * 256 + (cs 26).2.toNat))
      rx16 := some (BitVec.ofNat 16 ((cs 25).2.toNat * 256 + (cs 26).2.toNat))
      rxdata := some (cs 33).2, rxbuf := (measuredA a cs s b5 t).rxbuf
      fine := some (toReg b5), tOut := some (toReg t), trace := (measuredA a cs s b5 t).trace } :=
  measuredP_eq a (fun j => cs (14 + j)) (sampledT a cs b5 t s)

variable {a cs s}

/-- SAMPLE_A up to its pressure's formula, its temperature's formula giving a result. -/
theorem performs_untilCompAp {b5 t : Int} (hc : s.calOk = true) (ht : s.tstate = .idle)
    (hcalc : calcAT s.build.overflowMode ((cs 11).2.toNat * 256 + (cs 12).2.toNat : Nat)
      s.cal[4].toNat s.cal[5].toNat s.cal[9].toInt s.cal[10].toInt = .ok (b5, t)) :
    Performs (seqMeasureT a ++ MStep.compAt :: seqMeasureP a) (symsSampleA a) ((List.range 35).map cs) s
      (measuredA a cs s b5 t) := by
  have hformula : Performs [.compAt] [] [] (measuredT a cs s) (sampledT a cs b5 t s) :=
    performs_datapath (step := stepCompAt) (fun _ => rfl) rfl fun w rest more => stepCompAt_measured hc w rest more hcalc
  have hpressure := performs_measureP a (fun j => cs (14 + j)) (sampledT a cs b5 t s) rfl
  exact (performs_measureT a cs s ht).append (hformula.append hpressure)

end

/-- Settles O44: the parts before the formula that faults are performed, and the fault's entry writes nothing they wrote. -/
theorem sampleAFaultIsPrecise : Obligations.SampleAFaultIsPrecise := by
  unfold Obligations.SampleAFaultIsPrecise
  intro s a cs more c hs hv hc ht hmore
  have ha : (Instr.sampleA a).admitted s.build.variant = true := by rw [hv]; rfl
  have hsteps : stepsOf s.build s.calOk (.sampleA a) = _ :=
    (congrArg (stepsOf s.build · (.sampleA a)) hc).trans (stepsOf_sampleA_calibrated s.build a)
  refine ⟨fun b5 t hin hcalcT hcalcP => ?_, fun hin hcalcT => ?_⟩
  · have hparts := performs_untilCompAp (a := a) hc ht hcalcT
    have hfault : ∀ w rest more, stepCompAp (underway w rest more (measuredA a cs s b5 t)) = .error c :=
      fun w rest more => stepCompAp_measured (cs := fun j => cs (14 + j)) (s := sampledT a cs b5 t s) hc w rest more rfl rfl
        hcalcP
    refine ⟨_, exec_performs_fault (rest := []) hs ha ht hparts hin hmore hsteps (fun _ => rfl) hfault, ?_,
      fun j => (rx_of_rxbuf rfl j).trans (rx_measuredA a cs s b5 t j)⟩
    rw [faultState_of_idle ht, ← hparts.trace]
    exact congrArg (fun u => faultState c (encode (.sampleA a)) (u.withInputs more)) (measuredA_eq a cs s b5 t)
  · have hparts := performs_measureT a cs s ht
    refine ⟨_, exec_performs_fault hs ha ht hparts hin hmore hsteps (fun _ => rfl)
      fun w rest more => stepCompAt_measured hc w rest more hcalcT, ?_, rx_resultRead a trigTempA Config.tConvT cs s⟩
    rw [faultState_of_idle ht]
    rfl

end Sys2Proof.Proofs.SampleFaultsA
end

section
/-! PROOFS. The reset event (R270), and the SAMPLE commands before a calibration is loaded (R273). -/

namespace Sys2Proof.Proofs.ResetAndHazards

open Sys2Proof Sys2Proof.Machine Sys2Proof.Proofs.Steps Sys2Proof.Proofs.DriverA Sys2Proof.Proofs.CommandParts

/-- Settles O2: the step's only action is the reset, which reads nothing of the state but what it keeps. -/
theorem resetEvent : Obligations.ResetEvent := by
  unfold Obligations.ResetEvent
  intro s more hin
  have hstep : step s = .next (s.withInputs more).hardReset := by simp only [step, advance, hin]
  rw [hstep]
  rfl

/-! ### SAMPLE without a calibration (R273) -/

theorem stepsOf_sampleA_uncalibrated (b : Build) (a : Addr7) :
    stepsOf b false (.sampleA a) = [.requireIdle, .zeroOutputs] := rfl

theorem stepsOf_sampleB_uncalibrated (b : Build) (a : Addr7) :
    stepsOf b false (.sampleB a) = [.requireIdle, .zeroOutputs] := rfl

/-- The outputs are zeroed with no request and no event. -/
theorem performs_zeroOutputs (s : State) : Performs [.zeroOutputs] [] [] s { s with tOut := some 0, pOut := some 0 } :=
  performs_done rfl fun _ _ _ => rfl

/-- A command that only zeroes the outputs once it has found the block in IDLE. -/
theorem exec_zeroOutputs {i : Instr} {s : State} (hs : s.Ready) (ha : i.admitted s.build.variant = true)
    (hsteps : stepsOf s.build s.calOk i = [.requireIdle, .zeroOutputs]) :
    exec i s = .next (if s.tstate = .idle then { s.ended with tOut := some 0, pOut := some 0 }
      else faultState .protocolViolation (encode i) s) := by
  by_cases ht : s.tstate = .idle
  · have ⟨_, _, hturn⟩ := hs
    rw [if_pos ht, exec_performs (more := s.inputs) hs ha ht (performs_zeroOutputs s) rfl hturn hsteps]
    rfl
  · rw [if_neg ht, exec_not_idle hs ha hsteps ht]

/-- Settles O54: without a calibration both commands are the IDLE check and the zeroing of the outputs. -/
theorem sampleWithoutCalibration : Obligations.SampleWithoutCalibration := by
  unfold Obligations.SampleWithoutCalibration
  intro s a hs hc
  refine ⟨fun hv => exec_zeroOutputs hs (by rw [hv]; rfl) ?_, fun hv => exec_zeroOutputs hs (by rw [hv]; rfl) ?_⟩
  · rw [hc, stepsOf_sampleA_uncalibrated]
  · rw [hc, stepsOf_sampleB_uncalibrated]

end Sys2Proof.Proofs.ResetAndHazards
end
